-- ==== Sys2Proof/Word.lean ====
section
/-! DEFINITION. The words of the hardware: bytes, 16-bit and 32-bit fields, and the numbers of streams and blocks. -/

namespace Sys2Proof

/-- One byte of the feed link or the cadence bus (R125, R164). -/
abbrev Byte := BitVec 8

/-- A 16-bit field: sequence numbers, cycle numbers, checks (spec 00, 0-6; spec 10). -/
abbrev Half := BitVec 16

/-- A 32-bit field: setpoint values and counters (R5, R21). -/
abbrev Word := BitVec 32

/-- A stream number 0..63 (R1). -/
abbrev StreamId := Fin 64

/-- A block number 0..255 (R21). -/
abbrev BlockId := Fin 256

end Sys2Proof
end

