-- ==== Sys2Proof/Syntax.lean ====
section
/-! DEFINITION. The commands: one constructor per row of spec/opcode_table.json. -/

namespace Sys2Proof

/-- What brings the part into power-on reset (R165; spec 00, 0-6 (9)). -/
inductive ResetCause where
  /-- Power is applied, with the RST pin at the given level. -/
  | power (rstHigh : Bool)
  /-- The RST pin is held low for `ns` nanoseconds so far; a pulse shorter than 1000 ns is ignored. -/
  | rstLow (ns : Nat)
deriving DecidableEq, Repr

/-- The part's commands. A request command (`hello` … `unknownKind`) is the Request Unit's take of the frame at
the head of the receive buffer (R144); its fields stand in that frame. -/
inductive Instr where
  /-- POWER_ON_RESET (R165): the levels of the straps RATE1 and RATE0 stand beside the cause. -/
  | powerOnReset (cause : ResetCause) (rate1 rate0 : Bool)
  /-- RST_RELEASE (R125): the rising edge of RST, with the levels of RATE1 and RATE0. -/
  | rstRelease (rate1 rate0 : Bool)
  /-- SYNC_BYTE (R127): a byte B4H taken in HUNT. -/
  | syncByte
  /-- HUNT_BYTE (R127): another byte taken in HUNT. -/
  | huntByte (b : Byte)
  /-- LENGTH_BYTE (R128). -/
  | lengthByte (b : Byte)
  /-- BODY_BYTE (R129). -/
  | bodyByte (b : Byte)
  /-- HIGH_CHECK_BYTE (R129). -/
  | highCheckByte (b : Byte)
  /-- LOW_CHECK_BYTE (R129). -/
  | lowCheckByte (b : Byte)
  /-- INTER_BYTE_TIMEOUT (R130). -/
  | interByteTimeout
  /-- HELLO (R150). -/
  | hello
  /-- OPEN (R7). -/
  | openStream
  /-- CLOSE_AT_ONCE (R10). -/
  | closeAtOnce
  /-- CLOSE_WITH_DRAIN (R11). -/
  | closeWithDrain
  /-- RESUME_WITHOUT_SEQUENCE (R98). -/
  | resumeWithoutSequence
  /-- RESUME_WITH_START_SEQUENCE (R99). -/
  | resumeWithStartSequence
  /-- TUNE (R14). -/
  | tune
  /-- QUERY (R18). -/
  | query
  /-- COUNTERS (R151). -/
  | counters
  /-- FLUSH (R118). -/
  | flush
  /-- STAGE (R62). -/
  | stage
  /-- SWAP (R63). -/
  | swap
  /-- START (R72). -/
  | start
  /-- HALT (R83). -/
  | halt
  /-- PERIOD (R86). -/
  | period
  /-- RESET (R153). -/
  | reset
  /-- BUNDLE (R40). -/
  | bundle
  /-- UNKNOWN_KIND (R146). -/
  | unknownKind
  /-- BLOCK_VOIDED (R32). -/
  | blockVoided
  /-- CYCLE_START (R74). -/
  | cycleStart
  /-- SLOT_EVENT (R75). -/
  | slotEvent
  /-- SLOT_OUTCOME (R77): `none` when no return frame began in the window, else the bytes the first one delivered. -/
  | slotOutcome (ret : Option (List Byte))
  /-- PICK (R136). -/
  | pick
  /-- FRAME_SENT (R135). -/
  | frameSent
  /-- CLOCK_STOPS (R165). -/
  | clockStops
  /-- CLOCK_RETURNS (R165). -/
  | clockReturns
deriving DecidableEq, Repr

end Sys2Proof
end

