-- ==== Sys2Proof/Config.lean ====
section
/-! DEFINITION. The free values: what the spec leaves arbitrary (R22). Nothing in Lean can evaluate them. -/

namespace Sys2Proof

/-- The value field an entry of the Ring Store holds after power-on number `epoch`, before anything is written (R22: arbitrary). -/
opaque Config.powerOnValue (epoch entry : Nat) : Word

/-- The tag field of the same entry (R22: arbitrary). -/
opaque Config.powerOnTag (epoch entry : Nat) : Half

/-- The held mark of the same entry (R22: arbitrary). -/
opaque Config.powerOnHeld (epoch entry : Nat) : Bool

end Sys2Proof
end

