-- ==== Sys2Proof/Machine/State.lean ====
section
/-! DEFINITION. The state of the part, block by block, as plain data, and its value after reset. -/

namespace Sys2Proof.Machine

/-- One value per stream 0..63. -/
abbrev PerStream (α : Type) := Vector α 64

/-- The value of stream `i`. -/
def PerStream.at {α : Type} (t : PerStream α) (i : StreamId) : α := t.get i

/-- The table with stream `i`'s value replaced. -/
def PerStream.put {α : Type} (t : PerStream α) (i : StreamId) (x : α) : PerStream α := t.set i x

/-- The table that holds `f i` for each stream `i`. -/
def PerStream.tabulate {α : Type} (f : StreamId → α) : PerStream α := Vector.ofFn f

/-- The streams in ascending order. -/
def allStreams : List StreamId := List.finRange 64

/-! ## Stream Table -/

/-- The six states of a stream record (spec 01, 1-3). -/
inductive StreamState where
  | closed | sweeping | priming | playing | starved | draining
deriving DecidableEq, Repr

/-- The five open states; a CLOSED record holds no opening at all. -/
inductive Phase where
  | sweeping | priming | playing | starved | draining
deriving DecidableEq, Repr

/-- The state a phase is. -/
def Phase.state : Phase → StreamState
  | .sweeping => .sweeping
  | .priming => .priming
  | .playing => .playing
  | .starved => .starved
  | .draining => .draining

/-- The underrun policy (R93). -/
inductive Policy where
  | repeatLast | safe
deriving DecidableEq, Repr

/-- The three notice kinds a stream has (R155). -/
inductive NoticeKind where
  | state | discard | silent
deriving DecidableEq, Repr

/-- A subset of the three stream notice kinds (spec 01, 1-2). -/
structure NoticeMask where
  state   : Bool
  discard : Bool
  silent  : Bool
deriving DecidableEq, Repr

/-- The 13 counters of a stream record (R5), each 32 bits and wrapping. -/
structure StreamCounters where
  placed         : Word := 0
  duplicate      : Word := 0
  late           : Word := 0
  ahead          : Word := 0
  refused        : Word := 0
  played         : Word := 0
  substituted    : Word := 0
  starveEvents   : Word := 0
  returnsGood    : Word := 0
  missing        : Word := 0
  corrupt        : Word := 0
  alien          : Word := 0
  collectDropped : Word := 0
deriving DecidableEq, Repr

/-- The fields an open stream record has beside its generation and counters (spec 01, 1-2). -/
structure Opening where
  phase        : Phase
  station      : Nat
  channel      : Nat
  ringSize     : Nat
  /-- The blocks of the ring, place 0 first (R23). -/
  blockMap     : List BlockId
  /-- The play position; absent exactly while the stream is adopting (R18, R44). -/
  playPos      : Option Half
  freshCount   : Nat
  missRun      : Nat
  primeDepth   : Nat
  starveLimit  : Nat
  policy       : Policy
  safeValue    : Word
  lastPlayed   : Word
  collectBatch : Nat
  mask         : NoticeMask
  activeSlots  : Nat
  silentRun    : Nat
deriving DecidableEq, Repr

/-- The adopting mark (R7, R18): the play position is absent. -/
def Opening.adopting (o : Opening) : Bool := o.playPos.isNone

/-- A stream record (R1, R2): a CLOSED one has only its generation and its counters. -/
structure StreamRec where
  generation : Byte := 0
  counters   : StreamCounters := {}
  opening    : Option Opening := none
deriving DecidableEq, Repr

/-- The state of a record. -/
def StreamRec.state (r : StreamRec) : StreamState :=
  match r.opening with
  | none => .closed
  | some o => o.phase.state

/-! ## Ring Store -/

/-- A ring entry (R21). -/
structure Entry where
  value : Word
  tag   : Half
  held  : Bool
deriving DecidableEq, Repr

/-- The sweep engine (R31): in BUSY the stream under sweep and the count of its blocks voided. -/
inductive SweepEngine where
  | idle
  | busy (stream : StreamId) (voided : Nat)
deriving DecidableEq, Repr

/-- The Ring Store. `entries` lists the entries written since power-on by number, rising; `epoch` names the
arbitrary contents of the others (R22), and is the model's own field. -/
structure RingStore where
  epoch      : Nat := 0
  entries    : List (Nat × Entry) := []
  freeBlocks : List BlockId := List.finRange 256
  sweepQueue : List StreamId := []
  engine     : SweepEngine := .idle
deriving DecidableEq, Repr

/-! ## Plan Store -/

/-- A slot entry of a plan (R57). -/
inductive PlanEntry where
  | idle
  | stream (i : StreamId)
deriving DecidableEq, Repr

/-- A plan: its entries in slot-index order; the slot count is the length (R57). -/
abbrev Plan := List PlanEntry

/-- The Plan Store (R57). -/
structure PlanStore where
  active      : Plan := []
  staged      : Plan := []
  swapPending : Bool := false
deriving DecidableEq, Repr

/-! ## Cycle Engine -/

/-- The bus state (R71). -/
inductive BusState where
  | stopped | running | halting
deriving DecidableEq, Repr

/-- The kinds of command frame (R76). -/
inductive CommandKind where
  | setpoint | hold | idle
deriving DecidableEq, Repr

/-- A slot record (R71): `target` is the stream and the generation, absent for IDLE. -/
structure SlotRecord where
  index   : Nat
  kind    : CommandKind
  target  : Option (StreamId × Byte)
  station : Nat
  channel : Nat
deriving DecidableEq, Repr

/-- A frame the part drives on the cadence bus (R164). -/
inductive BusFrame where
  | cycleStart (number : Half)
  | command (kind : CommandKind) (station channel : Nat) (value : Word)
deriving DecidableEq, Repr

/-- The Cycle Engine (R71). Times are in µs after the START was taken. -/
structure CycleEngine where
  state        : BusState := .stopped
  period       : Nat := 1000
  /-- The time of the next cycle-start event (R73). -/
  cycleTimer   : Option Nat := none
  cycleNumber  : Half := 0
  inProgress   : Bool := false
  slotCount    : Option Nat := none
  slotInFlight : Option SlotRecord := none
  /-- The slot index whose slot event comes next in the cycle in progress (R74, R75). -/
  nextSlot     : Nat := 0
  /-- No cycle-start event has come since the START (R74, step 2). -/
  firstCycle   : Bool := false
  /-- The time of the latest event of the Cycle Engine (R73, R75, R77). -/
  busTime      : Nat := 0
  /-- The frame being driven on BTX with BDE asserted; none once its last byte has gone out, so in the return window, and
  whenever BDE is released (R164, R165). -/
  busTx        : Option BusFrame := none
deriving DecidableEq, Repr

/-! ## Return Collector -/

/-- The outcome of a slot (R78); a GOOD one brings the status byte and the value of the return. -/
inductive ReturnOutcome where
  | good (status : Byte) (value : Word)
  | missing
  | corrupt
  | alien
deriving DecidableEq, Repr

/-- A return record (R111). -/
structure ReturnRecord where
  cycle   : Half
  slot    : Nat
  outcome : ReturnOutcome
deriving DecidableEq, Repr

/-- A report (R114). -/
structure Report where
  stream     : StreamId
  generation : Byte
  final      : Bool
  dropped    : Nat
  records    : List ReturnRecord
deriving DecidableEq, Repr

/-- The Return Collector (R110). -/
structure Collector where
  buffers   : PerStream (List ReturnRecord) := Vector.replicate 64 []
  tallies   : PerStream Nat := Vector.replicate 64 0
  queue     : List Report := []
  stallList : List StreamId := []
deriving DecidableEq, Repr

/-! ## Feed Link Port -/

/-- The rates of the feed link (R125), in Mbit/s. -/
inductive LinkRate where
  | r1 | r3 | r6 | r12
deriving DecidableEq, Repr

/-- The receive framer (spec 08, 8-3), with the running CRC and the bytes taken so far. -/
inductive RxFramer where
  | hunt
  | length (crc : Half)
  | body (len : Nat) (taken : List Byte) (crc : Half)
  | checkHigh (taken : List Byte) (crc : Half)
  | checkLow (taken : List Byte) (high : Byte) (crc : Half)
deriving DecidableEq, Repr

/-- The inter-byte timer runs exactly inside a frame (spec 08, 8-3). -/
def RxFramer.timerRunning : RxFramer → Bool
  | .hunt => false
  | .length _ => true
  | .body _ _ _ => true
  | .checkHigh _ _ => true
  | .checkLow _ _ _ => true

/-- A received frame that passed its check: its body bytes (R126, R131). -/
abbrev Frame := List Byte

/-- The transmit framer (R135): in SENDING the bytes of the frame, sync byte to check. -/
inductive TxFramer where
  | idle
  | sending (bytes : List Byte)
deriving DecidableEq, Repr

/-- The eight link counters (R140), each 32 bits and wrapping. -/
structure LinkCounters where
  huntBytes      : Word := 0
  badLength      : Word := 0
  badCheck       : Word := 0
  timeouts       : Word := 0
  overflow       : Word := 0
  framesReceived : Word := 0
  framesSent     : Word := 0
  badForm        : Word := 0
deriving DecidableEq, Repr

/-- The Feed Link Port with the transmit arbiter (R125 to R141). The rate is absent while RST is low. -/
structure FeedLink where
  rate        : Option LinkRate
  rx          : RxFramer := .hunt
  rxBuf       : List Frame := []
  tx          : TxFramer := .idle
  /-- The bit times of the run of bytes under way that lie before the frame being sent, or before the frame that follows
  at once: 0 where a run begins (R125, R135; log 16). -/
  runSent     : Nat := 0
  sinceReport : Nat := 0
  lastNotice  : StreamId := 63
  counters    : LinkCounters := {}
deriving DecidableEq, Repr

/-! ## Request Unit -/

/-- The statuses of a reply (R147). -/
inductive Status where
  | done | cancelled | badForm | badValue | noStream | wrongState | inUse | noSpace | tableFull | busy | unknownKind
deriving DecidableEq, Repr

/-- The snapshot a QUERY answers (R18): the fields of an open record with the count of its collect buffer and
its place in the stall list. -/
structure Snapshot where
  opening  : Opening
  buffered : Nat
  stalled  : Bool
deriving DecidableEq, Repr

/-- The four global counters of the Request Unit (R152), each 32 bits and wrapping. -/
structure GlobalCounters where
  bundlesForClosed   : Word := 0
  orphanReturns      : Word := 0
  unsolicitedReturns : Word := 0
  collectLostAtClose : Word := 0
deriving DecidableEq, Repr

/-- The result fields of a reply (R161). -/
inductive ReplyResult where
  | none
  | hello (freeBlocks : Nat) (bus : BusState)
  | generation (g : Byte)
  | stateGeneration (st : StreamState) (g : Byte)
  | state (st : StreamState)
  | closedSnapshot (g : Byte)
  | openSnapshot (g : Byte) (snap : Snapshot)
  | streamCounters (st : StreamState) (g : Byte) (c : StreamCounters)
  | globalCounters (g : GlobalCounters) (l : LinkCounters)
  | recordCount (n : Nat)
  | slotCount (n : Nat)
  | swapped (slots : Nat) (cycle : Option Half)
  | started (bus : BusState) (period : Nat)
  | bus (b : BusState)
  | period (p : Nat)
  | bundle (placed duplicate late ahead : Nat) (st : StreamState)
deriving DecidableEq, Repr

/-- A formed reply (R147, R161), less the credits byte, which is written at its pick (R134). -/
structure Reply where
  tag    : Byte
  /-- The kind code of the request answered, as received. -/
  kind   : Byte
  status : Status
  /-- The stream byte of offset 5. -/
  stream : Byte
  result : ReplyResult
deriving DecidableEq, Repr

/-- The kind and the object of a pending entry (R148). -/
inductive PendingJob where
  | openOf (i : StreamId)
  | resumeOf (i : StreamId)
  | closeOf (i : StreamId)
  | swap
  | halt
deriving DecidableEq, Repr

/-- A pending entry (R148). -/
structure PendingEntry where
  tag : Byte
  job : PendingJob
deriving DecidableEq, Repr

/-- A pending flag and an occurrence count of the notice set (R142). -/
structure NoticeCell where
  flag  : Bool := false
  count : Word := 0
deriving DecidableEq, Repr

/-- The three cells of one stream (R142). -/
structure StreamNotices where
  state   : NoticeCell := {}
  discard : NoticeCell := {}
  silent  : NoticeCell := {}
deriving DecidableEq, Repr

/-- The Request Unit (R142). -/
structure RequestUnit where
  replyQueue   : List Reply := []
  pendingTable : List PendingEntry := []
  notices      : PerStream StreamNotices := Vector.replicate 64 {}
  link         : NoticeCell := {}
  globals      : GlobalCounters := {}
  handling     : Option Frame := none
deriving DecidableEq, Repr

/-! ## The part -/

/-- The whole part, and the queue of the commands that wait. -/
structure State where
  streams      : PerStream StreamRec
  ring         : RingStore
  plans        : PlanStore
  bus          : CycleEngine
  coll         : Collector
  link         : FeedLink
  req          : RequestUnit
  /-- The CLK input runs (R165). -/
  clockRunning : Bool
  /-- The RST pin holds the part in reset (R141, R165). -/
  rstLow       : Bool
  /-- The commands waiting, first in, first out. -/
  pending      : List Instr
deriving DecidableEq, Repr

/-- Why the part stops: the spec names no such condition, so there is no constructor (log 1). No command raises a
fault; a state machine that never stops is neither safer nor less safe than the spec's. -/
inductive Fault : Type
deriving DecidableEq, Repr

/-- Why a command has no meaning. -/
inductive Refusal where
  /-- Raised by no arm of exec: every command has its meaning. It would be safe (the model would stop). -/
  | notModelled (mnemonic : String)
deriving DecidableEq, Repr

/-- The outcome of one command. -/
abbrev Outcome := Host.Outcome State Fault Refusal

/-- The part right after reset, RST released with both straps low (log 5): R2, R37, R57, R71, R110, R141, R142. -/
def State.reset : State where
  streams := Vector.replicate 64 {}
  ring := {}
  plans := {}
  bus := {}
  coll := {}
  link := { rate := some .r1 }
  req := {}
  clockRunning := true
  rstLow := false
  pending := []

end Sys2Proof.Machine
end

