-- ==== Sys2Proof/Machine/Flags.lean ====
section
/-! DEFINITION. The flags of the part: notice masks, pending flags with their occurrence counts, and outcome counters. -/

namespace Sys2Proof.Machine

/-- An occurrence count raised by `n`, holding at FFFFFFFFH (R142). -/
def holdAdd (c : Word) (n : Nat) : Word := BitVec.ofNat 32 (min (c.toNat + n) 4294967295)

/-- A raise (R155): the count rises by `n` and the flag is set. -/
def NoticeCell.raise (c : NoticeCell) (n : Nat) : NoticeCell := { flag := true, count := holdAdd c.count n }

/-- A clear flag with a count of 0 (R155, R156). -/
def NoticeCell.clear : NoticeCell := { flag := false, count := 0 }

/-- The mask of all three kinds, which an absent mask of an OPEN means (R7). -/
def NoticeMask.all : NoticeMask := { state := true, discard := true, silent := true }

/-- A kind stands in a mask. -/
def NoticeMask.has (m : NoticeMask) : NoticeKind → Bool
  | .state => m.state
  | .discard => m.discard
  | .silent => m.silent

/-- The cell of a kind. -/
def StreamNotices.cell (n : StreamNotices) : NoticeKind → NoticeCell
  | .state => n.state
  | .discard => n.discard
  | .silent => n.silent

/-- The cells with the one of a kind replaced. -/
def StreamNotices.setCell (n : StreamNotices) : NoticeKind → NoticeCell → StreamNotices
  | .state, c => { n with state := c }
  | .discard, c => { n with discard := c }
  | .silent, c => { n with silent := c }

/-- A mask change (R17): a kind in both masks keeps its cell, any other kind begins clear. -/
def StreamNotices.remask (n : StreamNotices) (old new : NoticeMask) : StreamNotices where
  state := if old.state && new.state then n.state else .clear
  discard := if old.discard && new.discard then n.discard else .clear
  silent := if old.silent && new.silent then n.silent else .clear

/-- The first kind pending of a stream, in the order STATE, DISCARD, SILENT (R138). -/
def StreamNotices.firstPending (n : StreamNotices) : Option NoticeKind :=
  if n.state.flag then some .state
  else if n.discard.flag then some .discard
  else if n.silent.flag then some .silent
  else none

/-- The counter of an attributed outcome rises (R81, step 1). -/
def StreamCounters.countOutcome (c : StreamCounters) : ReturnOutcome → StreamCounters
  | .good _ _ => { c with returnsGood := c.returnsGood + 1 }
  | .missing => { c with missing := c.missing + 1 }
  | .corrupt => { c with corrupt := c.corrupt + 1 }
  | .alien => { c with alien := c.alien + 1 }

/-- The silent run after an attributed outcome (R82). -/
def silentRunAfter (run : Nat) : ReturnOutcome → Nat
  | .good _ _ => 0
  | .missing => if run < 8 then run + 1 else run
  | .corrupt => run
  | .alien => run

/-- The outcome that brings the silent run from 7 to 8 (R82). -/
def fallsSilent (run : Nat) : ReturnOutcome → Bool
  | .good _ _ => false
  | .missing => run == 7
  | .corrupt => false
  | .alien => false

end Sys2Proof.Machine
end

