-- ==== Sys2Proof/Machine/Formats.lean ====
section
/-! DEFINITION. The formats the part sends: checks, frames, replies, notices, reports and bus frames (R126, R159 to R164). -/

namespace Sys2Proof.Machine

/-! ## Byte order and the check -/

/-- A 16-bit field, high byte first (spec 10). -/
def bytes16 (x : Half) : List Byte := [x.extractLsb' 8 8, x.extractLsb' 0 8]

/-- A 32-bit field, high byte first (spec 10). -/
def bytes32 (x : Word) : List Byte :=
  [x.extractLsb' 24 8, x.extractLsb' 16 8, x.extractLsb' 8 8, x.extractLsb' 0 8]

/-- A number in one byte. -/
def byteOf (n : Nat) : Byte := BitVec.ofNat 8 n

/-- A number in 16 bits, high byte first. -/
def num16 (n : Nat) : List Byte := bytes16 (BitVec.ofNat 16 n)

/-- One bit of the CRC-16 with polynomial 1021H (R126). -/
def crcBit (c : Half) : Half := if c.msb then (c <<< 1) ^^^ 0x1021#16 else c <<< 1

/-- One byte fed into the CRC, most significant bit first (R126). -/
def crcByte (c : Half) (b : Byte) : Half :=
  crcBit (crcBit (crcBit (crcBit (crcBit (crcBit (crcBit (crcBit (c ^^^ (b.setWidth 16 <<< 8)))))))))

/-- The CRC-16 of a run of bytes, initial value FFFFH, no final inversion (R126). -/
def crc16 (bs : List Byte) : Half := bs.foldl crcByte 0xFFFF#16

/-- A frame of the feed link: sync byte, length, body, check over length and body (R126). -/
def frameBytes (body : List Byte) : List Byte :=
  0xB4#8 :: byteOf body.length :: (body ++ bytes16 (crc16 (byteOf body.length :: body)))

/-! ## Codes (R160, R161, R163) -/

/-- no and yes: 00H and 01H. -/
def flagByte (b : Bool) : Byte := if b then 1 else 0

/-- Status codes (R161). -/
def Status.code : Status → Byte
  | .done => 0x00 | .cancelled => 0x01 | .badForm => 0x02 | .badValue => 0x03 | .noStream => 0x04
  | .wrongState => 0x05 | .inUse => 0x06 | .noSpace => 0x07 | .tableFull => 0x08 | .busy => 0x09
  | .unknownKind => 0x0A

/-- Stream state codes (R161). -/
def StreamState.code : StreamState → Byte
  | .closed => 0 | .sweeping => 1 | .priming => 2 | .playing => 3 | .starved => 4 | .draining => 5

/-- Bus state codes (R161). -/
def BusState.code : BusState → Byte
  | .stopped => 0 | .running => 1 | .halting => 2

/-- Policy codes (R160). -/
def Policy.code : Policy → Byte
  | .repeatLast => 0 | .safe => 1

/-- Notice mask bits (R160). -/
def NoticeMask.code (m : NoticeMask) : Byte :=
  byteOf ((if m.state then 1 else 0) + (if m.discard then 2 else 0) + (if m.silent then 4 else 0))

/-- Notice kind codes (R163). -/
def NoticeKind.code : NoticeKind → Byte
  | .state => 1 | .discard => 2 | .silent => 3

/-- Command frame types (R164). -/
def CommandKind.code : CommandKind → Byte
  | .setpoint => 1 | .hold => 2 | .idle => 3

/-! ## Replies (R161, R162) -/

/-- The 13 counters in the order of R151. -/
def StreamCounters.bytes (c : StreamCounters) : List Byte :=
  bytes32 c.placed ++ bytes32 c.duplicate ++ bytes32 c.late ++ bytes32 c.ahead ++ bytes32 c.refused ++
  bytes32 c.played ++ bytes32 c.substituted ++ bytes32 c.starveEvents ++ bytes32 c.returnsGood ++
  bytes32 c.missing ++ bytes32 c.corrupt ++ bytes32 c.alien ++ bytes32 c.collectDropped

/-- The four counters of the Request Unit in the order of R151. -/
def GlobalCounters.bytes (g : GlobalCounters) : List Byte :=
  bytes32 g.bundlesForClosed ++ bytes32 g.orphanReturns ++ bytes32 g.unsolicitedReturns ++ bytes32 g.collectLostAtClose

/-- The eight link counters in the order of R151. -/
def LinkCounters.bytes (l : LinkCounters) : List Byte :=
  bytes32 l.huntBytes ++ bytes32 l.badLength ++ bytes32 l.badCheck ++ bytes32 l.timeouts ++ bytes32 l.overflow ++
  bytes32 l.framesReceived ++ bytes32 l.framesSent ++ bytes32 l.badForm

/-- The play position, carried only when the stream is not adopting (R162). -/
def playPosBytes : Option Half → List Byte
  | none => []
  | some p => bytes16 p

/-- The snapshot of an open stream from offset 6 (R162). -/
def Snapshot.bytes (g : Byte) (n : Snapshot) : List Byte :=
  [n.opening.phase.state.code, g, byteOf n.opening.station, byteOf n.opening.channel] ++ num16 n.opening.ringSize ++
  [byteOf n.opening.blockMap.length] ++ n.opening.blockMap.map (fun b => byteOf b.val) ++
  [flagByte n.opening.adopting] ++ playPosBytes n.opening.playPos ++ num16 n.opening.freshCount ++
  [byteOf n.opening.missRun] ++ num16 n.opening.primeDepth ++ [byteOf n.opening.starveLimit, n.opening.policy.code] ++
  bytes32 n.opening.safeValue ++ bytes32 n.opening.lastPlayed ++
  [byteOf n.opening.collectBatch, n.opening.mask.code, byteOf n.opening.activeSlots, byteOf n.opening.silentRun,
   byteOf n.buffered, flagByte n.stalled]

/-- The result fields from offset 6 (R161). -/
def ReplyResult.bytes : ReplyResult → List Byte
  | .none => []
  | .hello free b =>
    [1, 64] ++ num16 256 ++ [96, 8, 16, 12] ++ num16 free ++ [b.code]
  | .generation g => [g]
  | .stateGeneration st g => [st.code, g]
  | .state st => [st.code]
  | .closedSnapshot g => [StreamState.closed.code, g]
  | .openSnapshot g snap => snap.bytes g
  | .streamCounters st g c => [st.code, g] ++ c.bytes
  | .globalCounters g l => g.bytes ++ l.bytes
  | .recordCount n => [byteOf n]
  | .slotCount n => [byteOf n]
  | .swapped n cycle => [byteOf n, flagByte cycle.isSome] ++ bytes16 (cycle.getD 0)
  | .started b p => [b.code] ++ num16 p
  | .bus b => [b.code]
  | .period p => num16 p
  | .bundle placed duplicate late ahead st => [byteOf placed, byteOf duplicate, byteOf late, byteOf ahead, st.code]

/-- The body of a REPLY with its credits byte (R134, R161). -/
def Reply.body (r : Reply) (credits : Nat) : List Byte :=
  [0x40, r.tag, byteOf credits, r.kind, r.status.code, r.stream] ++ r.result.bytes

/-! ## Notices and reports (R163) -/

/-- The body of a stream notice; `st` is carried for STATE only. -/
def noticeBody (credits : Nat) (k : NoticeKind) (i : StreamId) (count : Word) (st : StreamState) : List Byte :=
  [0x41, 0, byteOf credits, k.code, byteOf i.val] ++ bytes32 count ++ (if k = .state then [st.code] else [])

/-- The body of a LINK notice. -/
def linkNoticeBody (credits : Nat) (count : Word) : List Byte :=
  [0x41, 0, byteOf credits, 4, 0xFF] ++ bytes32 count

/-- An outcome in a return record: GOOD goes on with the status byte and the value (R163). -/
def ReturnOutcome.bytes : ReturnOutcome → List Byte
  | .good status value => [0, status] ++ bytes32 value
  | .missing => [1]
  | .corrupt => [2]
  | .alien => [3]

/-- A return record (R163). -/
def ReturnRecord.bytes (r : ReturnRecord) : List Byte :=
  bytes16 r.cycle ++ [byteOf r.slot] ++ r.outcome.bytes

/-- The body of a REPORT. -/
def Report.body (r : Report) (credits : Nat) : List Byte :=
  [0x42, 0, byteOf credits, byteOf r.stream.val, r.generation, flagByte r.final] ++ num16 r.dropped ++
  [byteOf r.records.length] ++ r.records.flatMap ReturnRecord.bytes

/-! ## Cadence bus frames (R164) -/

/-- The bytes of a bus frame before its check. -/
def BusFrame.fields : BusFrame → List Byte
  | .cycleStart n => 0x10 :: bytes16 n
  | .command kind station channel value => [kind.code, byteOf station, byteOf channel] ++ bytes32 value

/-- The bytes of a bus frame with its valid check. -/
def BusFrame.bytes (b : BusFrame) : List Byte := b.fields ++ bytes16 (crc16 b.fields)

/-- The outcome of a slot by what came in its return window (R78, R164); the record of an IDLE slot holds station 0 and
channel 0. -/
def classifyReturn (r : SlotRecord) : Option (List Byte) → ReturnOutcome
  | none => .missing
  | some bs =>
    match bs with
    | station :: channel :: status :: v3 :: v2 :: v1 :: v0 :: c1 :: c0 :: _ =>
      if bytes16 (crc16 [station, channel, status, v3, v2, v1, v0]) = [c1, c0] then
        if station.toNat = r.station ∧ channel.toNat = r.channel then .good status (v3 ++ v2 ++ (v1 ++ v0)) else .alien
      else .corrupt
    | _ => .corrupt

end Sys2Proof.Machine
end

