-- ==== Sys2Proof/Machine/Operands.lean ====
section
/-! DEFINITION. The operand forms: the bodies of requests and bundles (R159, R160), parsed, and the row a frame belongs to. -/

namespace Sys2Proof.Machine

/-- Two bytes, high byte first (spec 10). -/
def be16 (h l : Byte) : Half := h ++ l

/-- Four bytes, high byte first (spec 10). -/
def be32 (a b c d : Byte) : Word := a ++ b ++ (c ++ d)

/-- Byte `n` of a body, 0 beyond its end. -/
def byteAt (f : Frame) (n : Nat) : Byte := f.getD n 0

/-- The kind byte (R159). -/
def kindOf (f : Frame) : Byte := byteAt f 0

/-- The tag byte (R159). -/
def tagOf (f : Frame) : Byte := byteAt f 1

/-- The stream a byte names, if it is 0..63 (R1). -/
def streamOf (b : Byte) : Option StreamId :=
  if h : b.toNat < 64 then some ⟨b.toNat, h⟩ else none

/-- A request kind: 01H..0EH (R159). -/
def isRequestKind (k : Byte) : Bool := decide (1 ≤ k.toNat ∧ k.toNat ≤ 14)

/-- A frame that needs a reply (R143). -/
def needsReply (f : Frame) : Bool := isRequestKind (kindOf f) || decide (tagOf f ≠ 0)

/-- The command that takes a frame: its kind, for CLOSE the drain flag, for RESUME presence bit 0 (R146, R160; log 3). -/
def frameCommand (f : Frame) : Instr :=
  match (kindOf f).toNat with
  | 1 => .hello
  | 2 => .openStream
  | 3 => if byteAt f 3 = 1 then .closeWithDrain else .closeAtOnce
  | 4 => if (byteAt f 3).getLsbD 0 then .resumeWithStartSequence else .resumeWithoutSequence
  | 5 => .tune
  | 6 => .query
  | 7 => .counters
  | 8 => .flush
  | 9 => .stage
  | 10 => .swap
  | 11 => .start
  | 12 => .halt
  | 13 => .period
  | 14 => .reset
  | 32 => .bundle
  | _ => .unknownKind

/-! ## Field codes (R160) -/

/-- policy: 00H REPEAT, 01H SAFE; a form field. -/
def policyOf (b : Byte) : Option Policy :=
  if b = 0 then some .repeatLast else if b = 1 then some .safe else none

/-- notice mask: bits 0, 1, 2; any other bit is a fault of form. -/
def maskOf (b : Byte) : Option NoticeMask :=
  if b.toNat < 8 then some { state := b.getLsbD 0, discard := b.getLsbD 1, silent := b.getLsbD 2 } else none

/-- drain and clear flags: 00H no, 01H yes; form fields. -/
def flagOf (b : Byte) : Option Bool :=
  if b = 0 then some false else if b = 1 then some true else none

/-- slot entry: 00H..3FH a stream, FFH IDLE; a value field. -/
def planEntryOf (b : Byte) : Option PlanEntry :=
  if b = 0xFF then some .idle else (streamOf b).map .stream

/-- The slot entries of a list of bytes, if each is good. -/
def planOf : List Byte → Option Plan
  | [] => some []
  | b :: bs =>
    match planEntryOf b, planOf bs with
    | some e, some p => some (e :: p)
    | _, _ => none

/-- target: 00H..3FH a stream, FFH GLOBAL; a value field. -/
inductive CountersTarget where
  | stream (i : StreamId)
  | global
deriving DecidableEq, Repr

/-- The target a byte names (R151). -/
def targetOf (b : Byte) : Option CountersTarget :=
  if b = 0xFF then some .global else (streamOf b).map .stream

/-! ## Optional fields: carried only when their presence bit is set (R160) -/

/-- An optional one-byte field at the head of `bs`. -/
def optByte (present : Bool) (bs : List Byte) : Option (Option Byte × List Byte) :=
  if present then
    match bs with
    | b :: rest => some (some b, rest)
    | [] => none
  else some (none, bs)

/-- An optional 16-bit field. -/
def optHalf (present : Bool) (bs : List Byte) : Option (Option Half × List Byte) :=
  if present then
    match bs with
    | h :: l :: rest => some (some (be16 h l), rest)
    | _ => none
  else some (none, bs)

/-- An optional 32-bit field. -/
def optWord (present : Bool) (bs : List Byte) : Option (Option Word × List Byte) :=
  if present then
    match bs with
    | a :: b :: c :: d :: rest => some (some (be32 a b c d), rest)
    | _ => none
  else some (none, bs)

/-- An optional form field: absent, or a code that `code` lists. -/
def optCode {α : Type} (code : Byte → Option α) : Option Byte → Option (Option α)
  | none => some none
  | some b => (code b).map some

/-! ## Requests -/

/-- The fields of an OPEN (spec 01, 1-4); numbers are not yet checked for their ranges. -/
structure OpenRequest where
  stream      : Byte
  station     : Nat
  channel     : Nat
  ringSize    : Nat
  primeDepth  : Nat
  starveLimit : Nat
  policy      : Policy
  safeValue   : Word
  start       : Option Half
  batch       : Option Byte
  mask        : Option NoticeMask
deriving DecidableEq, Repr

/-- The optional fields of an OPEN: start sequence (bit 0), collect batch (bit 1), notice mask (bit 2). -/
def openOptions (presence : Byte) (bs : List Byte) : Option (Option Half × Option Byte × Option NoticeMask) := do
  let (start, bs) ← optHalf (presence.getLsbD 0) bs
  let (batch, bs) ← optByte (presence.getLsbD 1) bs
  let (maskByte, bs) ← optByte (presence.getLsbD 2) bs
  let mask ← optCode maskOf maskByte
  if bs = [] ∧ presence.toNat < 8 then some (start, batch, mask) else none

/-- The body of an OPEN (R160). -/
def parseOpen (f : Frame) : Option OpenRequest :=
  match f with
  | _ :: _ :: stream :: station :: channel :: r1 :: r0 :: p1 :: p0 :: starve :: pol :: v3 :: v2 :: v1 :: v0 :: presence :: rest =>
    match policyOf pol, openOptions presence rest with
    | some policy, some (start, batch, mask) =>
      some { stream, station := station.toNat, channel := channel.toNat, ringSize := (be16 r1 r0).toNat,
             primeDepth := (be16 p1 p0).toNat, starveLimit := starve.toNat, policy, safeValue := be32 v3 v2 v1 v0,
             start, batch, mask }
    | _, _ => none
  | _ => none

/-- The body of a CLOSE (R160): the stream byte and the drain flag. -/
def parseClose (f : Frame) : Option (Byte × Bool) :=
  match f with
  | [_, _, stream, drain] => (flagOf drain).map fun d => (stream, d)
  | _ => none

/-- The body of a RESUME (R160): the stream byte and the optional start sequence. -/
def parseResume (f : Frame) : Option (Byte × Option Half) :=
  match f with
  | [_, _, stream, presence] => if presence = 0 then some (stream, none) else none
  | [_, _, stream, presence, h, l] => if presence = 1 then some (stream, some (be16 h l)) else none
  | _ => none

/-- The fields of a TUNE (spec 01, 1-6). -/
structure TuneRequest where
  stream      : Byte
  primeDepth  : Option Half
  starveLimit : Option Byte
  policy      : Option Policy
  safeValue   : Option Word
  batch       : Option Byte
  mask        : Option NoticeMask
deriving DecidableEq, Repr

/-- The optional fields of a TUNE, presence bits 0 to 5 in order; none at all is a fault of form (R14). -/
def tuneFields (stream presence : Byte) (bs : List Byte) : Option TuneRequest := do
  let (primeDepth, bs) ← optHalf (presence.getLsbD 0) bs
  let (starveLimit, bs) ← optByte (presence.getLsbD 1) bs
  let (polByte, bs) ← optByte (presence.getLsbD 2) bs
  let policy ← optCode policyOf polByte
  let (safeValue, bs) ← optWord (presence.getLsbD 3) bs
  let (batch, bs) ← optByte (presence.getLsbD 4) bs
  let (maskByte, bs) ← optByte (presence.getLsbD 5) bs
  let mask ← optCode maskOf maskByte
  if bs = [] ∧ 0 < presence.toNat ∧ presence.toNat < 64 then
    some { stream, primeDepth, starveLimit, policy, safeValue, batch, mask }
  else none

/-- The body of a TUNE (R160). -/
def parseTune (f : Frame) : Option TuneRequest :=
  match f with
  | _ :: _ :: stream :: presence :: rest => tuneFields stream presence rest
  | _ => none

/-- The body of a QUERY or a FLUSH (R160): the stream byte. -/
def parseStream (f : Frame) : Option Byte :=
  match f with
  | [_, _, stream] => some stream
  | _ => none

/-- The body of a COUNTERS (R160): the target byte and the clear flag. -/
def parseCounters (f : Frame) : Option (Byte × Bool) :=
  match f with
  | [_, _, target, clear] => (flagOf clear).map fun c => (target, c)
  | _ => none

/-- The body of a STAGE (R160): exactly slot count entries after the count. -/
def parseStage (f : Frame) : Option (List Byte) :=
  match f with
  | _ :: _ :: n :: entries => if entries.length = n.toNat then some entries else none
  | _ => none

/-- The body of a request without fields (R160). -/
def parseBare (f : Frame) : Option Unit :=
  match f with
  | [_, _] => some ()
  | _ => none

/-- The body of a PERIOD (R160). -/
def parsePeriod (f : Frame) : Option Nat :=
  match f with
  | [_, _, h, l] => some (be16 h l).toNat
  | _ => none

/-- A request with tag 0 is answered BAD FORM whatever its body holds (R146). -/
def formed {α : Type} (parse : Frame → Option α) (f : Frame) : Option α :=
  if tagOf f = 0 then none else parse f

/-! ## Bundles -/

/-- A well-formed BUNDLE (R38). -/
structure BundleRequest where
  stream : StreamId
  first  : Half
  values : List Word
deriving DecidableEq, Repr

/-- Values of four bytes each; none when bytes are left over. -/
def wordsOf : List Byte → Option (List Word)
  | [] => some []
  | a :: b :: c :: d :: rest => (wordsOf rest).map (be32 a b c d :: ·)
  | _ => none

/-- The body of a BUNDLE; none when it is malformed (R39, R160). -/
def parseBundle (f : Frame) : Option BundleRequest :=
  match f with
  | _ :: _ :: stream :: h :: l :: count :: rest =>
    match streamOf stream, wordsOf rest with
    | some i, some values =>
      if values.length = count.toNat ∧ 1 ≤ values.length ∧ values.length ≤ 32 then
        some { stream := i, first := be16 h l, values }
      else none
    | _, _ => none
  | _ => none

end Sys2Proof.Machine
end

