-- ==== Sys2Proof/Machine/Ops.lean ====
section
/-! DEFINITION. The named operations over the state that several commands share. -/

namespace Sys2Proof.Machine

/-! ## The blocks of the state, each replaced by one named update -/

def State.withStreams (s : State) (t : PerStream StreamRec) : State := { s with streams := t }
def State.withRing (s : State) (r : RingStore) : State := { s with ring := r }
def State.withPlans (s : State) (p : PlanStore) : State := { s with plans := p }
def State.withBus (s : State) (b : CycleEngine) : State := { s with bus := b }
def State.withColl (s : State) (c : Collector) : State := { s with coll := c }
def State.withLink (s : State) (l : FeedLink) : State := { s with link := l }
def State.withReq (s : State) (u : RequestUnit) : State := { s with req := u }

/-- The part takes events: CLK runs and RST does not hold the part in reset (R141, R165; log 7). -/
def State.live (s : State) : Bool := s.clockRunning && !s.rstLow

/-- A change of the state where the event is due, and none where it is not (log 1). -/
def State.onlyIf (s : State) (due : Bool) (t : State) : State := if due then t else s

/-- The record of a stream (R1). -/
def State.stream (s : State) (i : StreamId) : StreamRec := s.streams.at i

/-- What the record holds while open. -/
def State.opening (s : State) (i : StreamId) : Option Opening := (s.stream i).opening

/-- The state with one record replaced. -/
def State.withStream (s : State) (i : StreamId) (r : StreamRec) : State := s.withStreams (s.streams.put i r)

/-- The state with the open fields of one record replaced. -/
def State.withOpening (s : State) (i : StreamId) (o : Option Opening) : State :=
  s.withStream i { s.stream i with opening := o }

/-- The state with the counters of one record replaced. -/
def State.withCounters (s : State) (i : StreamId) (c : StreamCounters) : State :=
  s.withStream i { s.stream i with counters := c }

/-- The counters of a record. -/
def State.counters (s : State) (i : StreamId) : StreamCounters := (s.stream i).counters

/-! ## Sequence numbers -/

/-- The signed distance d(t, s) (spec 00, 0-6 (5); R43). -/
def seqDist (t s : Half) : Int := (t - s).toInt

/-! ## The Ring Store: entries (R21 to R24) -/

/-- The entry a list holds under a number. -/
def findEntry (k : Nat) : List (Nat × Entry) → Option Entry
  | [] => none
  | (n, e) :: rest => if n = k then some e else findEntry k rest

/-- A list with an entry put under a number, the numbers still rising. -/
def insertEntry (k : Nat) (e : Entry) : List (Nat × Entry) → List (Nat × Entry)
  | [] => [(k, e)]
  | (n, x) :: rest =>
    if k < n then (k, e) :: (n, x) :: rest
    else if k = n then (k, e) :: rest
    else (n, x) :: insertEntry k e rest

/-- The arbitrary contents of an entry not written since power-on (R22; log 4). -/
def arbitraryEntry (epoch k : Nat) : Entry where
  value := Config.powerOnValue epoch k
  tag := Config.powerOnTag epoch k
  held := Config.powerOnHeld epoch k

/-- The entry of a number (R21). -/
def RingStore.read (r : RingStore) (k : Nat) : Entry := (findEntry k r.entries).getD (arbitraryEntry r.epoch k)

/-- The store with an entry written. -/
def RingStore.write (r : RingStore) (k : Nat) (e : Entry) : RingStore := { r with entries := insertEntry k e r.entries }

/-- The number of the entry at ring index `x` (R23): offset `x mod 32` of the block at place `x div 32` of the block
map. None when the map has no such place. -/
def Opening.ringEntry (o : Opening) (x : Nat) : Option Nat := (o.blockMap[x / 32]?).map fun b => b.val * 32 + x % 32

/-- The number of the entry at which a sequence number belongs: that of its ring index (R23). -/
def Opening.entryNumber (o : Opening) (t : Half) : Option Nat := o.ringEntry (t.toNat % o.ringSize)

/-- The place operation (R24 (1)): the entry is written if it is not held; the answer says whether it was. -/
def RingStore.place (r : RingStore) (k : Nat) (t : Half) (v : Word) : Bool × RingStore :=
  if (r.read k).held then (false, r) else (true, r.write k { value := v, tag := t, held := true })

/-- The void operation (R24 (3)). -/
def RingStore.void (r : RingStore) (k : Nat) : RingStore := r.write k { r.read k with held := false }

/-- The consume operation (R24 (2)): the entry as it was, and the store with it not held. -/
def RingStore.consume (r : RingStore) (k : Nat) : Entry × RingStore := (r.read k, r.void k)

/-- `n` entries voided from number `base` on. -/
def RingStore.voidRun (r : RingStore) (base : Nat) : Nat → RingStore
  | 0 => r
  | n + 1 => (r.voidRun base n).void (base + n)

/-- All 32 entries of a block voided (R32). -/
def RingStore.voidBlock (r : RingStore) (b : BlockId) : RingStore := r.voidRun (b.val * 32) 32

/-! ## The Ring Store: blocks and sweeps (R26 to R34) -/

/-- Blocks join the tail of the free block list (R28). -/
def RingStore.giveBack (r : RingStore) (bs : List BlockId) : RingStore := { r with freeBlocks := r.freeBlocks ++ bs }

/-- Blocks leave the head of the free block list (R27). -/
def RingStore.dropHead (r : RingStore) (n : Nat) : RingStore := { r with freeBlocks := r.freeBlocks.drop n }

/-- The free engine takes the queue head or becomes IDLE (R31). -/
def RingStore.engineFree (r : RingStore) : RingStore :=
  match r.sweepQueue with
  | [] => { r with engine := .idle }
  | j :: rest => { r with engine := .busy j 0, sweepQueue := rest }

/-- A stream joins the sweep queue; an idle engine takes it in the same claim (R30, R31). -/
def RingStore.joinSweep (r : RingStore) (i : StreamId) : RingStore :=
  match r.engine with
  | .idle => { r with engine := .busy i 0 }
  | .busy _ _ => { r with sweepQueue := r.sweepQueue ++ [i] }

/-- A closing stream leaves the sweep queue, or its sweep is abandoned (R34). -/
def RingStore.leaveSweep (r : RingStore) (i : StreamId) : RingStore :=
  match r.engine with
  | .idle => { r with sweepQueue := r.sweepQueue.erase i }
  | .busy j _ => if j = i then r.engineFree else { r with sweepQueue := r.sweepQueue.erase i }

/-! ## Replies and the pending table (R145 to R149, R161) -/

/-- A reply joins the tail of the reply queue (R147). -/
def RequestUnit.queueReply (u : RequestUnit) (r : Reply) : RequestUnit := { u with replyQueue := u.replyQueue ++ [r] }

/-- A pending entry is made (R148). -/
def RequestUnit.addPending (u : RequestUnit) (e : PendingEntry) : RequestUnit :=
  { u with pendingTable := u.pendingTable ++ [e] }

/-- The stream an entry has for its object (R148). -/
def PendingJob.stream : PendingJob → Option StreamId
  | .openOf i => some i
  | .resumeOf i => some i
  | .closeOf i => some i
  | .swap => none
  | .halt => none

/-- The kind code of the request an entry answers (R159). -/
def PendingJob.kind : PendingJob → Byte
  | .openOf _ => 0x02
  | .resumeOf _ => 0x04
  | .closeOf _ => 0x03
  | .swap => 0x0A
  | .halt => 0x0C

/-- The stream byte of a reply: the stream, or FFH (R161). -/
def streamByte : Option StreamId → Byte
  | none => 0xFF
  | some i => byteOf i.val

/-- The reply that answers an entry (R149, R161). -/
def PendingEntry.reply (e : PendingEntry) (status : Status) (result : ReplyResult) : Reply where
  tag := e.tag
  kind := e.job.kind
  status := status
  stream := streamByte e.job.stream
  result := result

/-- The first entry that `p` holds of is answered: it leaves the table and its reply joins the queue (R149). -/
def RequestUnit.answer (u : RequestUnit) (p : PendingEntry → Bool) (reply : PendingEntry → Reply) : RequestUnit :=
  match u.pendingTable.find? p with
  | none => u
  | some e => { u with pendingTable := u.pendingTable.eraseP p, replyQueue := u.replyQueue ++ [reply e] }

/-- Every entry is answered CANCELLED, oldest first (R153 (2)). -/
def RequestUnit.cancelAll (u : RequestUnit) : RequestUnit :=
  { u with pendingTable := []
           replyQueue := u.replyQueue ++ u.pendingTable.map fun e => e.reply .cancelled .none }

/-- The pending table holds 8 entries (R148). -/
def RequestUnit.tableFull (u : RequestUnit) : Bool := decide (8 ≤ u.pendingTable.length)

/-- The kinds whose requests name a stream (R161; log 12): OPEN to FLUSH, and BUNDLE. -/
def namesStream (k : Byte) : Bool := decide (2 ≤ k.toNat ∧ k.toNat ≤ 8) || decide (k = 0x20)

/-- The stream byte of offset 5 (R161): as received, FFH for BAD FORM or where the kind names no stream. -/
def replyStream (f : Frame) (status : Status) : Byte :=
  if status ≠ .badForm ∧ namesStream (kindOf f) = true ∧ 3 ≤ f.length then byteAt f 2 else 0xFF

/-- The reply to a frame (R147, R161). -/
def replyFor (f : Frame) (status : Status) (result : ReplyResult) : Reply where
  tag := tagOf f
  kind := kindOf f
  status := status
  stream := replyStream f status
  result := result

/-- A frame is answered. -/
def State.replyTo (s : State) (f : Frame) (status : Status) (result : ReplyResult) : State :=
  s.withReq (s.req.queueReply (replyFor f status result))

/-- A frame is refused with a status and no result field (R147). -/
def State.refuse (s : State) (f : Frame) (status : Status) : State := s.replyTo f status .none

/-- A frame's answer is deferred (R148). -/
def State.defer (s : State) (f : Frame) (job : PendingJob) : State :=
  s.withReq (s.req.addPending { tag := tagOf f, job := job })

/-! ## Taking a frame (R143, R144) -/

/-- A frame is eligible: it needs no reply, or the sum of replies and pending entries is 15 or fewer (R144). -/
def State.eligible (s : State) (f : Frame) : Bool :=
  !needsReply f || decide (s.req.replyQueue.length + s.req.pendingTable.length ≤ 15)

/-- The frame that command `c` takes now: the head of the receive buffer, if it is of `c`'s row and eligible (R144). -/
def State.taken (s : State) (c : Instr) : Option Frame :=
  match s.link.rxBuf with
  | [] => none
  | f :: _ => if s.live = true ∧ s.req.handling = none ∧ frameCommand f = c ∧ s.eligible f = true then some f else none

/-- The take: the frame leaves the buffer and is being handled (R144). -/
def State.beginHandling (s : State) (f : Frame) : State :=
  { s with link := { s.link with rxBuf := s.link.rxBuf.tail }
           req := { s.req with handling := some f } }

/-- The end of the handling: the Request Unit handles no frame (R144). -/
def State.endHandling (s : State) : State := s.withReq { s.req with handling := none }

/-- The frame a command takes is handled whole; with no frame to take nothing happens (R144; log 1, log 3). -/
def handleHead (c : Instr) (handle : Frame → State → State) (s : State) : Outcome :=
  match s.taken c with
  | none => .next s
  | some f => .next (handle f (s.beginHandling f)).endHandling

/-! ## The notice set (R155 to R157) -/

/-- The notice cells of a stream. -/
def State.noticesOf (s : State) (i : StreamId) : StreamNotices := s.req.notices.at i

/-- The state with the notice cells of one stream replaced. -/
def State.withNotices (s : State) (i : StreamId) (n : StreamNotices) : State :=
  s.withReq { s.req with notices := s.req.notices.put i n }

/-- A stream notice is raised by `n` if its kind stands in the stream's mask (R155). -/
def State.raiseNotice (s : State) (i : StreamId) (k : NoticeKind) (n : Nat) : State :=
  match s.opening i with
  | none => s
  | some o =>
    if o.mask.has k then s.withNotices i ((s.noticesOf i).setCell k (((s.noticesOf i).cell k).raise n)) else s

/-- A link fault raises LINK (R133). -/
def State.linkFault (s : State) : State := s.withReq { s.req with link := s.req.link.raise 1 }

/-! ## Changes of phase -/

/-- A PLAYING stream becomes STARVED with its counter and its STATE notice (R16 (2), R94). -/
def State.starve (s : State) (i : StreamId) (o : Opening) : State :=
  ((s.withOpening i (some { o with phase := .starved })).withCounters i
    { s.counters i with starveEvents := (s.counters i).starveEvents + 1 }).raiseNotice i .state 1

/-- A PRIMING stream becomes PLAYING with its STATE notice (R16 (1), R49). -/
def State.startPlaying (s : State) (i : StreamId) (o : Opening) : State :=
  (s.withOpening i (some { o with phase := .playing })).raiseNotice i .state 1

/-! ## The Return Collector (R110 to R122) -/

/-- A report is formed from a stream's buffer and joins the report queue; buffer and tally are cleared (R114). -/
def Collector.form (c : Collector) (i : StreamId) (generation : Byte) (final : Bool) : Collector where
  buffers := c.buffers.put i []
  tallies := c.tallies.put i 0
  queue := c.queue ++ [{ stream := i, generation := generation, final := final, dropped := c.tallies.at i, records := c.buffers.at i }]
  stallList := c.stallList

/-- A full buffer: a report is formed, or with 12 reports queued the stream stalls (R113). -/
def Collector.fillUp (c : Collector) (i : StreamId) (generation : Byte) : Collector :=
  if c.queue.length < 12 then c.form i generation false else { c with stallList := c.stallList ++ [i] }

/-- The stream leaves the stall list (R117). -/
def Collector.unstall (c : Collector) (i : StreamId) : Collector := { c with stallList := c.stallList.erase i }

/-- The stream's buffer is emptied. -/
def Collector.discard (c : Collector) (i : StreamId) : Collector := { c with buffers := c.buffers.put i [] }

/-- The stream's drop tally is set (R110): it holds at 65535. -/
def Collector.setTally (c : Collector) (i : StreamId) (n : Nat) : Collector :=
  { c with tallies := c.tallies.put i (min n 65535) }

/-- A return record joins the tail of a buffer (R112 (2)). -/
def Collector.append (c : Collector) (i : StreamId) (r : ReturnRecord) : Collector :=
  { c with buffers := c.buffers.put i (c.buffers.at i ++ [r]) }

/-- A stalled stream's record is dropped: collect dropped and the drop tally rise (R112 (3)). -/
def State.dropRecord (s : State) (i : StreamId) : State :=
  (s.withCounters i { s.counters i with collectDropped := (s.counters i).collectDropped + 1 }).withColl
    (s.coll.setTally i (s.coll.tallies.at i + 1))

/-- A record is kept, and the buffer handled if it is full (R112 (2), R113). -/
def State.keepRecord (s : State) (i : StreamId) (batch : Nat) (r : ReturnRecord) : State :=
  if batch ≤ ((s.coll.append i r).buffers.at i).length then
    s.withColl ((s.coll.append i r).fillUp i (s.stream i).generation)
  else s.withColl (s.coll.append i r)

/-- A return record is handed to the Return Collector for an open stream (R112). -/
def State.handRecord (s : State) (i : StreamId) (batch : Nat) (r : ReturnRecord) : State :=
  if batch = 0 then s
  else if i ∈ s.coll.stallList then s.dropRecord i
  else s.keepRecord i batch r

/-- The state with the global counters of the Request Unit replaced. -/
def State.withGlobals (s : State) (g : GlobalCounters) : State := s.withReq { s.req with globals := g }

/-- Collect lost at close rises by `n` (R122, R152). -/
def GlobalCounters.lose (g : GlobalCounters) (n : Nat) : GlobalCounters :=
  { g with collectLostAtClose := g.collectLostAtClose + BitVec.ofNat 32 n }

/-- What a close does with a collect buffer and a tally, once the stream has left the stall list (R122 (2) to (4)). -/
def State.closeBuffer (s : State) (i : StreamId) : State :=
  if s.coll.buffers.at i = [] then s.withColl (s.coll.setTally i 0)
  else if s.coll.queue.length < 12 then s.withColl (s.coll.form i (s.stream i).generation true)
  else
    (s.withGlobals (s.req.globals.lose (s.coll.buffers.at i).length)).withColl ((s.coll.discard i).setTally i 0)

/-- The close of a stream as it acts on collection (R122). -/
def State.closeCollection (s : State) (i : StreamId) : State := (s.withColl (s.coll.unstall i)).closeBuffer i

/-! ## Closing a stream (R12) -/

/-- The reply a close gives a stream's pending entry: DONE for a drain that has ended, CANCELLED otherwise (R12 (7)). -/
def closingReply (drainEnded : Bool) (e : PendingEntry) : Reply :=
  match e.job with
  | .openOf _ => e.reply .cancelled .none
  | .resumeOf _ => e.reply .cancelled .none
  | .closeOf _ => e.reply (if drainEnded then .done else .cancelled) .none
  | .swap => e.reply .cancelled .none
  | .halt => e.reply .cancelled .none

/-- The pending entry of a stream, if any, is answered at its close (R12 (7)). -/
def State.answerClosing (s : State) (i : StreamId) (drainEnded : Bool) : State :=
  s.withReq (s.req.answer (fun e => decide (e.job.stream = some i)) (closingReply drainEnded))

/-- The effects of closing an open stream, in the order of R12; `drainEnded` says that a drain has ended (R102 to
R104), not that a CLOSE overtakes it. -/
def State.closeStream (s : State) (i : StreamId) (drainEnded : Bool) : State :=
  match s.opening i with
  | none => s
  | some o =>
    ((((s.withOpening i none).withRing ((s.ring.giveBack o.blockMap).leaveSweep i)).withNotices i {}).closeCollection i).answerClosing
      i drainEnded

/-- A DRAINING stream that `p` holds of is closed, its drain ended (R103, R104). -/
def State.endDrain (p : Opening → Bool) (s : State) (i : StreamId) : State :=
  match s.opening i with
  | none => s
  | some o => if o.phase = .draining ∧ p o = true then s.closeStream i true else s

/-- Every DRAINING stream that `p` holds of is closed, in ascending stream number order (R103, R104). -/
def State.endDrains (s : State) (p : Opening → Bool) : State := allStreams.foldl (State.endDrain p) s

/-! ## Plans and swaps (R57 to R68) -/

/-- The number of entries of a plan that name a stream (R58). -/
def slotsNaming (p : Plan) (i : StreamId) : Nat := p.count (.stream i)

/-- A plan of `n` slots fits a period (R59). -/
def fitsPeriod (n period : Nat) : Bool := decide (4 + 2 * n + 8 ≤ period)

/-- The record with its active slots counted from a plan (R68 (3)). -/
def StreamRec.recount (r : StreamRec) (slots : Nat) : StreamRec :=
  { r with opening := r.opening.map fun o => { o with activeSlots := slots } }

/-- Every open stream's active slots counted from a plan (R68 (3)). -/
def State.recount (s : State) (p : Plan) : State :=
  s.withStreams (PerStream.tabulate fun i => (s.stream i).recount (slotsNaming p i))

/-- A swap (R68): the staged plan becomes active, the streams are recounted, drains left with no slots end. -/
def State.applySwap (s : State) : State :=
  ((s.withPlans { s.plans with active := s.plans.staged, staged := [] }).recount s.plans.staged).endDrains
    fun o => decide (o.activeSlots = 0)

/-- A pending swap is applied, the mark cleared and its entry answered DONE with the cycle number, if any (R66, R67). -/
def State.settleSwap (s : State) (cycle : Option Half) : State :=
  if s.plans.swapPending then
    let t := s.applySwap
    let u := t.withPlans { t.plans with swapPending := false }
    u.withReq (u.req.answer (fun e => decide (e.job = .swap))
      fun e => e.reply .done (.swapped u.plans.active.length cycle))
  else s

/-! ## Stopping the bus (R85) -/

/-- Step (1) of the stop event. -/
def CycleEngine.halted (b : CycleEngine) : CycleEngine :=
  { b with state := .stopped, cycleTimer := none, inProgress := false, slotCount := none, slotInFlight := none,
           nextSlot := 0, busTx := none }

/-- The stop event less the answer to the HALT: steps (1) to (3) of R85. -/
def State.stopBus (s : State) : State :=
  ((s.withBus s.bus.halted).settleSwap none).endDrains fun _ => true

end Sys2Proof.Machine
end

