-- ==== Sys2Proof/Machine/BusRequests.lean ====
section
/-! DEFINITION. The requests about plans and the bus: STAGE, SWAP, START, HALT, PERIOD (R61 to R68, R72, R83 to R86). -/

namespace Sys2Proof.Machine

/-! ## STAGE (R61, R62) -/

/-- No stream stands in more than 8 entries (R58). -/
def withinRepetition (p : Plan) : Bool := allStreams.all fun i => decide (slotsNaming p i ≤ 8)

/-- Checks (3) to (6) of R61. -/
def stagePlan (entries : List Byte) (period : Nat) : Option Plan :=
  if 1 ≤ entries.length ∧ entries.length ≤ 96 then
    match planOf entries with
    | none => none
    | some p => if withinRepetition p = true ∧ fitsPeriod p.length period = true then some p else none
  else none

/-- The handling of a STAGE frame (R61, R62). -/
def handleStage (f : Frame) (s : State) : State :=
  match formed parseStage f with
  | none => s.refuse f .badForm
  | some entries =>
    if s.plans.swapPending then s.refuse f .busy
    else
      match stagePlan entries s.bus.period with
      | none => s.refuse f .badValue
      | some p => (s.withPlans { s.plans with staged := p }).replyTo f .done (.slotCount p.length)

/-- STAGE (R62). -/
def execStage (s : State) : Outcome := handleHead .stage handleStage s

/-! ## SWAP (R63 to R65) -/

/-- A SWAP applied at once (R64). -/
def State.swapNow (s : State) (f : Frame) : State :=
  s.applySwap.replyTo f .done (.swapped s.applySwap.plans.active.length none)

/-- A SWAP deferred (R65). -/
def State.swapLater (s : State) (f : Frame) : State :=
  (s.withPlans { s.plans with swapPending := true }).defer f .swap

/-- The handling of a SWAP frame (R63). -/
def handleSwap (f : Frame) (s : State) : State :=
  match formed parseBare f with
  | none => s.refuse f .badForm
  | some _ =>
    if s.plans.swapPending then s.refuse f .busy
    else if s.plans.staged = [] then s.refuse f .wrongState
    else if s.bus.state = .stopped then s.swapNow f
    else if s.req.tableFull then s.refuse f .tableFull
    else s.swapLater f

/-- SWAP (R63). -/
def execSwap (s : State) : Outcome := handleHead .swap handleSwap s

/-! ## START (R72) -/

/-- The Cycle Engine after an accepted START (R72): the cycle timer expires 20 µs later. -/
def CycleEngine.started (b : CycleEngine) : CycleEngine :=
  { b with state := .running, cycleNumber := 0, cycleTimer := some 20, firstCycle := true, busTime := 0 }

/-- The handling of a START frame (R72). -/
def handleStart (f : Frame) (s : State) : State :=
  match formed parseBare f with
  | none => s.refuse f .badForm
  | some _ =>
    match s.bus.state with
    | .halting => s.refuse f .busy
    | .running => s.replyTo f .done (.started .running s.bus.period)
    | .stopped =>
      if s.plans.active = [] then s.refuse f .wrongState
      else (s.withBus s.bus.started).replyTo f .done (.started .running s.bus.period)

/-- START (R72). -/
def execStart (s : State) : Outcome := handleHead .start handleStart s

/-! ## HALT (R83 to R85) -/

/-- A HALT in the gap: the stop event and its DONE in one claim (R83 (4), R85). -/
def State.haltNow (s : State) (f : Frame) : State := s.stopBus.replyTo f .done (.bus .stopped)

/-- A HALT deferred to the end of the cycle (R84). -/
def State.haltLater (s : State) (f : Frame) : State := (s.withBus { s.bus with state := .halting }).defer f .halt

/-- The handling of a HALT frame (R83). -/
def handleHalt (f : Frame) (s : State) : State :=
  match formed parseBare f with
  | none => s.refuse f .badForm
  | some _ =>
    match s.bus.state with
    | .stopped => s.replyTo f .done (.bus .stopped)
    | .halting => s.refuse f .busy
    | .running =>
      if s.bus.inProgress then
        if s.req.tableFull then s.refuse f .tableFull else s.haltLater f
      else s.haltNow f

/-- HALT (R83). -/
def execHalt (s : State) : Outcome := handleHead .halt handleHalt s

/-! ## PERIOD (R86) -/

/-- Checks (2) to (4) of R86. -/
def State.periodRefusal (s : State) (p : Nat) : Option Status :=
  if p < 100 ∨ 10000 < p then some .badValue
  else if s.bus.state ≠ .stopped then some .busy
  else if !fitsPeriod s.plans.active.length p || !fitsPeriod s.plans.staged.length p then some .badValue
  else none

/-- The handling of a PERIOD frame (R86). -/
def handlePeriod (f : Frame) (s : State) : State :=
  match formed parsePeriod f with
  | none => s.refuse f .badForm
  | some p =>
    match s.periodRefusal p with
    | some status => s.refuse f status
    | none => (s.withBus { s.bus with period := p }).replyTo f .done (.period p)

/-- PERIOD (R86). -/
def execPeriod (s : State) : Outcome := handleHead .period handlePeriod s

end Sys2Proof.Machine
end

