-- ==== Sys2Proof/Machine/Line.lean ====
section
/-! DEFINITION. The lines of the two interfaces: a byte of the feed link bit by bit, FTX, and the driver enable BDE (R125, R165). -/

namespace Sys2Proof.Machine

/-! ## A byte on the line (R125) -/

/-- The stop level, high (R125, R165). Levels are given as "high". -/
def stopLevel : Bool := true

/-- The 8 data bits of a byte, least significant first (R125); a bit that is 1 stands high (log 16). -/
def dataBits (b : Byte) : List Bool :=
  [b.getLsbD 0, b.getLsbD 1, b.getLsbD 2, b.getLsbD 3, b.getLsbD 4, b.getLsbD 5, b.getLsbD 6, b.getLsbD 7]

/-- The 10 bit times of a byte: one start bit, the data bits, one stop bit, and no parity bit (R125). -/
def lineBits (b : Byte) : List Bool := (!stopLevel) :: (dataBits b ++ [stopLevel])

/-- A run of bytes sent back to back (R125, R135). -/
def runBits (bs : List Byte) : List Bool := bs.flatMap lineBits

/-- The rate in Mbit/s (R125). -/
def LinkRate.mbits : LinkRate → Nat
  | .r1 => 1 | .r3 => 3 | .r6 => 6 | .r12 => 12

/-- The CLK period at which bit edge `n` of a run falls, counted from the start edge of its first byte: the first one at or
after 50 n / R (R125). -/
def LinkRate.edge (r : LinkRate) (n : Nat) : Nat := (50 * n + (r.mbits - 1)) / r.mbits

/-- The bit time of a run that CLK period `c` lies in: the last one whose edge has come. -/
def LinkRate.bitAt (r : LinkRate) (c : Nat) : Nat := c * r.mbits / 50

/-! ## The receiver of a line (R125) -/

/-- Between bytes the receiver waits for a start bit; inside one it has sampled some data bits. -/
inductive LineReceiver where
  | waiting
  | sampling (bits : List Bool)
deriving DecidableEq, Repr

/-- The number that bits give, least significant first. -/
def bitsValue : List Bool → Nat
  | [] => 0
  | x :: xs => x.toNat + 2 * bitsValue xs

/-- One bit time on the line: the receiver after it, and the byte taken when a stop bit time has passed. The stop bit is not
checked (R125). -/
def LineReceiver.bit : LineReceiver → Bool → LineReceiver × Option Byte
  | .waiting, level => (if level = stopLevel then .waiting else .sampling [], none)
  | .sampling bits, level =>
    if bits.length < 8 then (.sampling (bits ++ [level]), none) else (.waiting, some (byteOf (bitsValue bits)))

/-- The bytes taken from a line, one level a bit time. -/
def LineReceiver.take : LineReceiver → List Bool → List Byte
  | _, [] => []
  | r, level :: rest => (r.bit level).2.toList ++ LineReceiver.take (r.bit level).1 rest

/-- The command that a byte taken from FRX is, by the state of the receive framer (R127 to R129). -/
def byteCommand : RxFramer → Byte → Instr
  | .hunt, b => if b = 0xB4#8 then .syncByte else .huntByte b
  | .length _, b => .lengthByte b
  | .body _ _ _, b => .bodyByte b
  | .checkHigh _ _, b => .highCheckByte b
  | .checkLow _ _ _, b => .lowCheckByte b

/-! ## Pins the part drives (R165) -/

/-- FTX `c` CLK periods after the start edge of the frame being sent: held at the stop level while the transmit framer is
IDLE and while RST is low (R135, R165). The edges are counted from the first byte of the run, which may have begun with an
earlier frame: this frame's start edge is edge `runSent` of it (R125). -/
def State.ftx (s : State) (c : Nat) : Bool :=
  if s.rstLow then stopLevel
  else
    match s.link.tx, s.link.rate with
    | .sending bytes, some r =>
      (runBits bytes).getD (r.bitAt (r.edge s.link.runSent + c) - s.link.runSent) stopLevel
    | _, _ => stopLevel

/-- BDE asserted: a cycle-start or command frame goes out, the bus is not STOPPED and RST is not low (R165). -/
def State.bde (s : State) : Bool := s.bus.busTx.isSome && decide (s.bus.state ≠ .stopped) && !s.rstLow

/-- The return window is open: the slot's command frame has ended, and the slot has not (R77, R164). -/
def CycleEngine.windowOpen (b : CycleEngine) : Bool := b.slotInFlight.isSome && b.busTx.isNone

/-- The frame being driven has gone out, and BDE is released: for the return window after a command frame, until slot 0 after
a cycle-start frame (R164, R165). -/
def CycleEngine.frameGone (b : CycleEngine) : CycleEngine := { b with busTx := none }

end Sys2Proof.Machine
end

