-- ==== Sys2Proof/Machine/Playout.lean ====
section
/-! DEFINITION. The Playout Unit: the visit (R89 to R94, R101, R102). -/

namespace Sys2Proof.Machine

/-- The command of a slot (R76, R89): `target` is the stream with its generation, absent for IDLE. -/
structure Command where
  kind    : CommandKind
  target  : Option (StreamId × Byte)
  station : Nat
  channel : Nat
  value   : Word
deriving DecidableEq, Repr

/-- The IDLE command: station 0, channel 0, value 0 (R76). -/
def Command.idleFrame : Command := { kind := .idle, target := none, station := 0, channel := 0, value := 0 }

/-- A command to a stream's station and channel, with the generation in force (R75 (2)). -/
def State.commandTo (s : State) (i : StreamId) (o : Opening) (kind : CommandKind) (value : Word) : Command :=
  { kind := kind, target := some (i, (s.stream i).generation), station := o.station, channel := o.channel, value := value }

/-- The entry due at the play position is consumed; `some v` when it is fresh: held and tagged with the play position (R91). -/
def consumeDue (o : Opening) (r : RingStore) : Option Word × RingStore :=
  match o.playPos with
  | none => (none, r)
  | some p =>
    match o.entryNumber p with
    | none => (none, r)
    | some k =>
      match r.consume k with
      | (e, r') => (if e.held = true ∧ e.tag = p then some e.value else none, r')

/-- The play position rises by 1, wrapping (R92 (6), R93 (6)). -/
def Opening.advanced (o : Opening) : Opening := { o with playPos := o.playPos.map (· + 1) }

/-- The record after a fresh visit (R92 (2) to (4), (6)). -/
def Opening.afterFresh (o : Opening) (v : Word) : Opening :=
  { o.advanced with lastPlayed := v, freshCount := o.freshCount - 1, missRun := 0 }

/-- The record after a stale visit (R93 (4), (6)). -/
def Opening.afterStale (o : Opening) : Opening := { o.advanced with missRun := o.missRun + 1 }

/-- The substitute of the policy (R93 (1)). -/
def Opening.substitute (o : Opening) : Word :=
  match o.policy with
  | .repeatLast => o.lastPlayed
  | .safe => o.safeValue

/-- The played counter rises (R92 (5)). -/
def StreamCounters.countPlayed (c : StreamCounters) : StreamCounters := { c with played := c.played + 1 }

/-- The substituted counter rises (R93 (5), R102 (2)). -/
def StreamCounters.countSubstituted (c : StreamCounters) : StreamCounters := { c with substituted := c.substituted + 1 }

/-- A fresh visit (R92, R101), with the ring already consumed. -/
def State.freshVisit (s : State) (i : StreamId) (o : Opening) (v : Word) : State :=
  (s.withOpening i (some (o.afterFresh v))).withCounters i (s.counters i).countPlayed

/-- A stale visit in PLAYING (R93), which may starve the stream (R94). -/
def State.staleVisit (s : State) (i : StreamId) (o : Opening) : State :=
  let t := (s.withOpening i (some o.afterStale)).withCounters i (s.counters i).countSubstituted
  if o.afterStale.missRun = o.starveLimit then t.starve i o.afterStale else t

/-- A stale visit to a DRAINING stream ends the drain (R102). -/
def State.lastVisit (s : State) (i : StreamId) : State :=
  (s.withCounters i (s.counters i).countSubstituted).closeStream i true

/-- A consuming visit of a PLAYING or DRAINING stream: the state it leaves (R91 to R94, R101, R102). -/
def State.consumingVisit (s : State) (i : StreamId) (o : Opening) : State :=
  match consumeDue o s.ring with
  | (some v, r) => (s.withRing r).freshVisit i o v
  | (none, r) =>
    if o.phase = .draining then (s.withRing r).lastVisit i else (s.withRing r).staleVisit i o

/-- The command of a consuming visit (R92 (1), R93 (1), R102 (1)). -/
def State.consumingCommand (s : State) (i : StreamId) (o : Opening) : Command :=
  match (consumeDue o s.ring).1 with
  | some v => s.commandTo i o .setpoint v
  | none => s.commandTo i o .hold o.substitute

/-- The command a visit decides (R89). -/
def State.visitCommand (s : State) (i : StreamId) : Command :=
  match s.opening i with
  | none => .idleFrame
  | some o =>
    match o.phase with
    | .sweeping => s.commandTo i o .hold o.safeValue
    | .priming => s.commandTo i o .hold o.safeValue
    | .starved => s.commandTo i o .hold o.safeValue
    | .playing => s.consumingCommand i o
    | .draining => s.consumingCommand i o

/-- The changes a visit makes in the same claim (R89, R90). -/
def State.visited (s : State) (i : StreamId) : State :=
  match s.opening i with
  | none => s
  | some o =>
    match o.phase with
    | .sweeping => s
    | .priming => s
    | .starved => s
    | .playing => s.consumingVisit i o
    | .draining => s.consumingVisit i o

end Sys2Proof.Machine
end

