-- ==== Sys2Proof/Machine/Cycle.lean ====
section
/-! DEFINITION. The Cycle Engine's events: cycle start, slot event, slot outcome (R66, R74 to R85), and the end of the frame
it drives (R164, R165). -/

namespace Sys2Proof.Machine

/-! ## The cycle-start event (R74) -/

/-- The number of the cycle that starts now (R74 (2)). -/
def CycleEngine.nextNumber (b : CycleEngine) : Half := if b.firstCycle then b.cycleNumber else b.cycleNumber + 1

/-- Steps (2) to (5) of R74 at time `t`, and the timer set one period later (R73). -/
def CycleEngine.begun (b : CycleEngine) (t slots : Nat) : CycleEngine :=
  { b with
    cycleNumber := b.nextNumber
    firstCycle := false
    slotCount := some slots
    inProgress := true
    nextSlot := 0
    busTime := t
    busTx := some (.cycleStart b.nextNumber)
    cycleTimer := some (t + b.period) }

/-- The cycle-start event at time `t` (R74): a pending swap first (R66). -/
def State.beginCycle (s : State) (t : Nat) : State :=
  let u := s.settleSwap (some s.bus.nextNumber)
  u.withBus (u.bus.begun t u.plans.active.length)

/-- A cycle-start event is due: the bus RUNNING and no cycle in progress (R73, R74). -/
def CycleEngine.cycleDue (b : CycleEngine) : Bool := decide (b.state = .running) && !b.inProgress

/-- CYCLE_START (R74): the cycle timer expires. -/
def execCycleStart (s : State) : Outcome :=
  .next (match s.bus.cycleTimer with
    | none => s
    | some t => s.onlyIf (s.live && s.bus.cycleDue) (s.beginCycle t))

/-! ## The slot event (R75) -/

/-- The time at which slot `k` of the cycle in progress begins: 4 + 2k µs after its cycle-start event, which came one
period before the timer's next expiry (R73, R75). -/
def CycleEngine.slotTime (b : CycleEngine) (k : Nat) : Nat := b.cycleTimer.getD 0 - b.period + 4 + 2 * k

/-- The Cycle Engine with a command frame sent in slot `k` (R75, R76). -/
def CycleEngine.sent (b : CycleEngine) (k : Nat) (c : Command) : CycleEngine :=
  { b with
    slotInFlight := some { index := k, kind := c.kind, target := c.target, station := c.station, channel := c.channel }
    nextSlot := k + 1
    busTime := b.slotTime k
    busTx := some (.command c.kind c.station c.channel c.value) }

/-- The slot event of slot `k` with plan entry `e` (R75). -/
def State.runSlot (s : State) (k : Nat) : PlanEntry → State
  | .idle => s.withBus (s.bus.sent k .idleFrame)
  | .stream i => (s.visited i).withBus (s.bus.sent k (s.visitCommand i))

/-- A slot event is due: a cycle in progress, no slot in flight, slots left (R74 (6), R75). -/
def CycleEngine.slotDue (b : CycleEngine) : Bool :=
  b.inProgress && b.slotInFlight.isNone && decide (b.nextSlot < b.slotCount.getD 0)

/-- SLOT_EVENT (R75). -/
def execSlotEvent (s : State) : Outcome :=
  .next (match s.plans.active[s.bus.nextSlot]? with
    | none => s
    | some e => s.onlyIf (s.live && s.bus.slotDue) (s.runSlot s.bus.nextSlot e))

/-! ## The end of a bus frame (R164, R165) -/

/-- What a step on an empty queue does: the last byte of the frame being driven goes out, and BDE is released; after a
command frame the return window opens. Without clock, and with RST low, nothing moves (R77, R164, R165; logs 2, 7, 17). -/
def State.passTime (s : State) : State := s.onlyIf s.live (s.withBus s.bus.frameGone)

/-! ## The outcome (R77 to R82) -/

/-- An orphan outcome (R79 (2)). -/
def State.countOrphan (s : State) : State :=
  s.withGlobals { s.req.globals with orphanReturns := s.req.globals.orphanReturns + 1 }

/-- An unsolicited return (R80). -/
def State.countUnsolicited (s : State) : State :=
  s.withGlobals { s.req.globals with unsolicitedReturns := s.req.globals.unsolicitedReturns + 1 }

/-- Steps (1) and (2) of R81: the outcome's counter, the silent run, the SILENT notice (R82). -/
def State.markOutcome (s : State) (i : StreamId) (o : Opening) (x : ReturnOutcome) : State :=
  let t := (s.withOpening i (some { o with silentRun := silentRunAfter o.silentRun x })).withCounters i
    ((s.counters i).countOutcome x)
  if fallsSilent o.silentRun x then t.raiseNotice i .silent 1 else t

/-- An attributed outcome (R81). -/
def State.attribute (s : State) (i : StreamId) (o : Opening) (slot : Nat) (x : ReturnOutcome) : State :=
  (s.markOutcome i o x).handRecord i o.collectBatch { cycle := s.bus.cycleNumber, slot := slot, outcome := x }

/-- The outcome of a slot, taken by its record (R79, R80). -/
def State.takeOutcome (s : State) (r : SlotRecord) (x : ReturnOutcome) : State :=
  match r.target with
  | none => if x = .missing then s else s.countUnsolicited
  | some (i, g) =>
    match s.opening i with
    | none => s.countOrphan
    | some o => if (s.stream i).generation = g then s.attribute i o r.index x else s.countOrphan

/-- The slot record becomes absent at the end of the slot, whose command frame has gone out before (R77, R164). -/
def CycleEngine.slotEnded (b : CycleEngine) (k : Nat) : CycleEngine :=
  { b.frameGone with slotInFlight := none, busTime := b.slotTime k + 2 }

/-- The cycle ends after the outcome of its last slot: the bus is in the gap (R75). -/
def CycleEngine.cycleEnded (b : CycleEngine) : CycleEngine := { b with inProgress := false, slotCount := none }

/-- The stop at the end of the cycle in HALTING, with the answer to the HALT's entry (R84, R85). -/
def State.stopAfterCycle (s : State) : State :=
  let t := s.stopBus
  t.withReq (t.req.answer (fun e => decide (e.job = .halt)) fun e => e.reply .done (.bus .stopped))

/-- The end of a cycle: in HALTING the bus stops (R84). -/
def State.endCycle (s : State) : State :=
  if s.bus.state = .halting then (s.withBus s.bus.cycleEnded).stopAfterCycle else s.withBus s.bus.cycleEnded

/-- After an outcome: the cycle ends if the slot was its last (R75, R84). -/
def State.afterOutcome (s : State) : State :=
  if s.bus.slotCount.getD 0 ≤ s.bus.nextSlot then s.endCycle else s

/-- The end of a slot (R77): the outcome is taken, the record becomes absent, the cycle may end. -/
def State.endSlot (s : State) (r : SlotRecord) (x : ReturnOutcome) : State :=
  let t := s.takeOutcome r x
  (t.withBus (t.bus.slotEnded r.index)).afterOutcome

/-- SLOT_OUTCOME (R77): what came in the return window is classified (R78) and taken. -/
def execSlotOutcome (ret : Option (List Byte)) (s : State) : Outcome :=
  .next (match s.bus.slotInFlight with
    | none => s
    | some r => s.onlyIf s.live (s.endSlot r (classifyReturn r ret)))

end Sys2Proof.Machine
end

