-- ==== Sys2Proof/Machine/PartRequests.lean ====
section
/-! DEFINITION. The requests about the part as a whole: HELLO, COUNTERS, FLUSH, and frames of unknown kinds (R118, R146, R150, R151). -/

namespace Sys2Proof.Machine

/-- The handling of a HELLO frame (R150). -/
def handleHello (f : Frame) (s : State) : State :=
  match formed parseBare f with
  | none => s.refuse f .badForm
  | some _ => s.replyTo f .done (.hello s.ring.freeBlocks.length s.bus.state)

/-- HELLO (R150). -/
def execHello (s : State) : Outcome := handleHead .hello handleHello s

/-- The 13 counters of a stream set to 0 (R5 (4)). -/
def State.clearStreamCounters (s : State) (i : StreamId) : State := s.withCounters i {}

/-- The twelve global counters set to 0 (R151 (2)). -/
def State.clearGlobalCounters (s : State) : State := (s.withGlobals {}).withLink { s.link with counters := {} }

/-- A COUNTERS of a target (R151): the snapshot is of the counters before the clear. -/
def State.countersOf (s : State) (f : Frame) (clear : Bool) : CountersTarget → State
  | .stream i =>
    (if clear then s.clearStreamCounters i else s).replyTo f .done
      (.streamCounters (s.stream i).state (s.stream i).generation (s.counters i))
  | .global =>
    (if clear then s.clearGlobalCounters else s).replyTo f .done (.globalCounters s.req.globals s.link.counters)

/-- The handling of a COUNTERS frame (R151). -/
def handleCounters (f : Frame) (s : State) : State :=
  match formed parseCounters f with
  | none => s.refuse f .badForm
  | some (b, clear) =>
    match targetOf b with
    | none => s.refuse f .badValue
    | some target => s.countersOf f clear target

/-- COUNTERS (R151). -/
def execCounters (s : State) : Outcome := handleHead .counters handleCounters s

/-- A FLUSH of an open stream: cases (4) to (7) of R118. -/
def State.flushStream (s : State) (f : Frame) (i : StreamId) (o : Opening) : State :=
  if o.collectBatch = 0 then s.refuse f .wrongState
  else if s.coll.buffers.at i = [] then s.replyTo f .done (.recordCount 0)
  else if 12 ≤ s.coll.queue.length then s.refuse f .busy
  else (s.withColl (s.coll.form i (s.stream i).generation false)).replyTo f .done
    (.recordCount (s.coll.buffers.at i).length)

/-- The handling of a FLUSH frame (R118). -/
def handleFlush (f : Frame) (s : State) : State :=
  match formed parseStream f with
  | none => s.refuse f .badForm
  | some b =>
    match streamOf b with
    | none => s.refuse f .badValue
    | some i =>
      match s.opening i with
      | none => s.refuse f .noStream
      | some o => s.flushStream f i o

/-- FLUSH (R118). -/
def execFlush (s : State) : Outcome := handleHead .flush handleFlush s

/-- The handling of a frame of a kind the part does not take (R146 (4), (5)). -/
def handleUnknownKind (f : Frame) (s : State) : State :=
  if tagOf f = 0 then
    s.withLink { s.link with counters := { s.link.counters with badForm := s.link.counters.badForm + 1 } }
  else s.refuse f .unknownKind

/-- UNKNOWN_KIND (R146). -/
def execUnknownKind (s : State) : Outcome := handleHead .unknownKind handleUnknownKind s

end Sys2Proof.Machine
end

