-- ==== Sys2Proof/Machine/Placement.lean ====
section
/-! DEFINITION. The Placement Unit: bundles (R38 to R52). -/

namespace Sys2Proof.Machine

/-- The four counts of a bundle (R51). -/
structure PlaceCounts where
  placed    : Nat := 0
  duplicate : Nat := 0
  late      : Nat := 0
  ahead     : Nat := 0
deriving DecidableEq, Repr

/-- How a sample is classified (R45). -/
inductive SampleClass where
  | late | ahead | duplicate | placed
deriving DecidableEq, Repr

/-- A count raised by one sample. -/
def PlaceCounts.count (c : PlaceCounts) : SampleClass → PlaceCounts
  | .late => { c with late := c.late + 1 }
  | .ahead => { c with ahead := c.ahead + 1 }
  | .duplicate => { c with duplicate := c.duplicate + 1 }
  | .placed => { c with placed := c.placed + 1 }

/-- One sample against the play position `pos` (R43, R45): late and ahead samples do not touch the ring. -/
def placeSample (o : Opening) (pos t : Half) (v : Word) (r : RingStore) : SampleClass × RingStore :=
  if seqDist t pos < 0 then (.late, r)
  else if (o.ringSize : Int) ≤ seqDist t pos then (.ahead, r)
  else
    match o.entryNumber t with
    | none => (.duplicate, r)
    | some k =>
      match r.place k t v with
      | (true, r') => (.placed, r')
      | (false, r') => (.duplicate, r')

/-- The samples of a bundle in list order, from sequence number `t` on (R38, R45). -/
def placeSamples (o : Opening) (pos t : Half) : List Word → RingStore → PlaceCounts → PlaceCounts × RingStore
  | [], r, c => (c, r)
  | v :: vs, r, c =>
    match placeSample o pos t v r with
    | (k, r') => placeSamples o pos (t + 1) vs r' (c.count k)

/-- The stream counters after a classified bundle (R52). -/
def StreamCounters.countPlaced (c : StreamCounters) (n : PlaceCounts) : StreamCounters :=
  { c with
    placed := c.placed + BitVec.ofNat 32 n.placed
    duplicate := c.duplicate + BitVec.ofNat 32 n.duplicate
    late := c.late + BitVec.ofNat 32 n.late
    ahead := c.ahead + BitVec.ofNat 32 n.ahead }

/-- A bundle with tag 0 is not acknowledged; with another tag it is, with its counts and the state the claim left (R51). -/
def State.acknowledge (s : State) (f : Frame) (i : StreamId) (status : Status) (n : PlaceCounts) : State :=
  if tagOf f = 0 then s
  else s.replyTo f status (.bundle n.placed n.duplicate n.late n.ahead (s.stream i).state)

/-- The play position a bundle is classified against: an adopting stream takes the bundle's first sequence (R44). -/
def Opening.adopt (o : Opening) (q : BundleRequest) : Half := o.playPos.getD q.first

/-- The samples classified and written (R40 (1), R44 to R47). -/
def State.classified (s : State) (q : BundleRequest) (o : Opening) : PlaceCounts × RingStore :=
  placeSamples o (o.adopt q) q.first q.values s.ring {}

/-- Steps (1) and (2) of R40: the ring, the record's position and fresh count, its counters. -/
def State.placeBundle (s : State) (q : BundleRequest) (o : Opening) : State :=
  ((s.withRing (s.classified q o).2).withOpening q.stream
    (some { o with playPos := some (o.adopt q), freshCount := o.freshCount + (s.classified q o).1.placed })).withCounters
    q.stream ((s.counters q.stream).countPlaced (s.classified q o).1)

/-- The start of playing, tested once per bundle (R49). -/
def State.testStart (s : State) (i : StreamId) : State :=
  match s.opening i with
  | none => s
  | some o => if o.phase = .priming ∧ o.primeDepth ≤ o.freshCount then s.startPlaying i o else s

/-- A DISCARD notice after a bundle with late or ahead samples (R50). -/
def State.noteDiscards (s : State) (i : StreamId) (n : PlaceCounts) : State :=
  if n.late + n.ahead = 0 then s else s.raiseNotice i .discard (n.late + n.ahead)

/-- A classified bundle: the five steps of R40. -/
def State.classifyBundle (s : State) (f : Frame) (q : BundleRequest) (o : Opening) : State :=
  ((((s.placeBundle q o).testStart q.stream).noteDiscards q.stream (s.classified q o).1).acknowledge f q.stream .done
    (s.classified q o).1)

/-- A bundle for a CLOSED stream (R41). -/
def State.bundleForClosed (s : State) (f : Frame) (i : StreamId) : State :=
  (s.withGlobals { s.req.globals with bundlesForClosed := s.req.globals.bundlesForClosed + 1 }).acknowledge f i .noStream {}

/-- A bundle refused whole (R42). -/
def State.refuseBundle (s : State) (f : Frame) (q : BundleRequest) : State :=
  (s.withCounters q.stream { s.counters q.stream with
    refused := (s.counters q.stream).refused + BitVec.ofNat 32 q.values.length }).acknowledge f q.stream .wrongState {}

/-- A malformed frame is answered BAD FORM, or with tag 0 counted as bad form (R39, R158). -/
def State.malformed (s : State) (f : Frame) : State :=
  if tagOf f = 0 then
    s.withLink { s.link with counters := { s.link.counters with badForm := s.link.counters.badForm + 1 } }
  else s.refuse f .badForm

/-- A well-formed bundle by the state of its stream (R40). -/
def State.takeBundle (s : State) (f : Frame) (q : BundleRequest) : State :=
  match s.opening q.stream with
  | none => s.bundleForClosed f q.stream
  | some o =>
    match o.phase with
    | .sweeping => s.refuseBundle f q
    | .draining => s.refuseBundle f q
    | .priming => s.classifyBundle f q o
    | .playing => s.classifyBundle f q o
    | .starved => s.classifyBundle f q o

/-- The handling of a BUNDLE frame (R39, R40). -/
def handleBundle (f : Frame) (s : State) : State :=
  match parseBundle f with
  | none => s.malformed f
  | some q => s.takeBundle f q

/-- BUNDLE (R40). -/
def execBundle (s : State) : Outcome := handleHead .bundle handleBundle s

end Sys2Proof.Machine
end

