-- ==== Sys2Proof/Machine/Receive.lean ====
section
/-! DEFINITION. The receive framer and the receive buffer (R126 to R133). -/

namespace Sys2Proof.Machine

/-- The receive framer goes to another state. -/
def State.withRx (s : State) (rx : RxFramer) : State := s.withLink { s.link with rx := rx }

/-- The link counters replaced. -/
def State.withLinkCounters (s : State) (c : LinkCounters) : State := s.withLink { s.link with counters := c }

/-- SYNC_BYTE (R127 (1)): in HUNT a byte B4H sets the running CRC to FFFFH and moves the framer to LENGTH. -/
def execSyncByte (s : State) : Outcome :=
  .next (s.onlyIf (s.live && decide (s.link.rx = .hunt)) (s.withRx (.length 0xFFFF#16)))

/-- A hunt byte is counted (R127 (2)). -/
def LinkCounters.countHunt (c : LinkCounters) : LinkCounters := { c with huntBytes := c.huntBytes + 1 }

/-- HUNT_BYTE (R127 (2)). A byte B4H is no hunt byte. -/
def execHuntByte (b : Byte) (s : State) : Outcome :=
  .next (s.onlyIf (s.live && decide (s.link.rx = .hunt ∧ b ≠ 0xB4#8)) (s.withLinkCounters s.link.counters.countHunt))

/-- A bad length abandons the frame (R128 (2)). -/
def State.badLength (s : State) : State :=
  ((s.withRx .hunt).withLinkCounters { s.link.counters with badLength := s.link.counters.badLength + 1 }).linkFault

/-- The length byte taken with running CRC `crc` (R128). -/
def State.takeLength (s : State) (b : Byte) (crc : Half) : State :=
  if 2 ≤ b.toNat ∧ b.toNat ≤ 250 then s.withRx (.body b.toNat [] (crcByte crc b)) else s.badLength

/-- LENGTH_BYTE (R128). -/
def execLengthByte (b : Byte) (s : State) : Outcome :=
  .next (match s.link.rx with
    | .length crc => s.onlyIf s.live (s.takeLength b crc)
    | _ => s)

/-- The framer after a body byte (R129): the L-th one moves it to CHECK HIGH. -/
def bodyAfter (len : Nat) (taken : List Byte) (crc : Half) : RxFramer :=
  if taken.length = len then .checkHigh taken crc else .body len taken crc

/-- BODY_BYTE (R129). -/
def execBodyByte (b : Byte) (s : State) : Outcome :=
  .next (match s.link.rx with
    | .body len taken crc => s.onlyIf s.live (s.withRx (bodyAfter len (taken ++ [b]) (crcByte crc b)))
    | _ => s)

/-- HIGH_CHECK_BYTE (R129). -/
def execHighCheckByte (b : Byte) (s : State) : Outcome :=
  .next (match s.link.rx with
    | .checkHigh taken crc => s.onlyIf s.live (s.withRx (.checkLow taken b crc))
    | _ => s)

/-- A good frame is offered to the receive buffer (R131). -/
def State.offer (s : State) (f : Frame) : State :=
  if s.link.rxBuf.length < 8 then
    s.withLink { s.link with
      rxBuf := s.link.rxBuf ++ [f]
      counters := { s.link.counters with framesReceived := s.link.counters.framesReceived + 1 } }
  else
    (s.withLinkCounters { s.link.counters with overflow := s.link.counters.overflow + 1 }).linkFault

/-- A frame whose check differs is discarded (R129 (2)). -/
def State.badCheck (s : State) : State :=
  (s.withLinkCounters { s.link.counters with badCheck := s.link.counters.badCheck + 1 }).linkFault

/-- LOW_CHECK_BYTE (R129): the two check bytes are compared with the running CRC. -/
def execLowCheckByte (b : Byte) (s : State) : Outcome :=
  .next (match s.link.rx with
    | .checkLow taken high crc =>
      s.onlyIf s.live (if be16 high b = crc then (s.withRx .hunt).offer taken else (s.withRx .hunt).badCheck)
    | _ => s)

/-- The frame being received is abandoned at the timer's expiry (R130). -/
def State.timeOut (s : State) : State :=
  ((s.withRx .hunt).withLinkCounters { s.link.counters with timeouts := s.link.counters.timeouts + 1 }).linkFault

/-- INTER_BYTE_TIMEOUT (R130): the timer runs only inside a frame. -/
def execInterByteTimeout (s : State) : Outcome := .next (s.onlyIf (s.live && s.link.rx.timerRunning) s.timeOut)

end Sys2Proof.Machine
end

