-- ==== Sys2Proof/Machine/Resets.lean ====
section
/-! DEFINITION. Power-on reset, the release of RST, the clock input, and the soft reset of each block (R2, R37, R70, R71, R88,
R110, R125, R141, R153, R165). -/

namespace Sys2Proof.Machine

/-- The rate the straps RATE1 and RATE0 choose (R125). -/
def rateOfStraps : Bool → Bool → LinkRate
  | false, false => .r1
  | false, true => .r3
  | true, false => .r6
  | true, true => .r12

/-- The power-on state of every block (R165). The CLK input and the waiting commands are outside the part; the ring
entries become arbitrary anew (R22, R37). -/
def State.powerOn (s : State) (rate : Option LinkRate) (rstLow : Bool) : State :=
  { State.reset with
    ring := { epoch := s.ring.epoch + 1 }
    link := { rate := rate }
    clockRunning := s.clockRunning
    rstLow := rstLow
    pending := s.pending }

/-- POWER_ON_RESET (R165). Power applied with RST high: the straps are read at once (R125). With RST low the part stays
in reset, with no rate read, until the release (R141; log 6). A low pulse shorter than 1 µs is ignored. -/
def execPowerOnReset (cause : ResetCause) (rate1 rate0 : Bool) (s : State) : Outcome :=
  .next (match cause with
    | .power true => s.powerOn (some (rateOfStraps rate1 rate0)) false
    | .power false => s.powerOn none true
    | .rstLow ns => s.onlyIf (decide (1000 ≤ ns)) (s.powerOn none true))

/-- The part leaves reset: the straps are read and the Feed Link Port stands at its power-on values (R125, R135, R138,
R140, R141). -/
def State.released (s : State) (rate : LinkRate) : State :=
  { s with link := { rate := some rate }, rstLow := false }

/-- RST_RELEASE (R125). A rising edge of RST while it does not hold the part in reset ends an ignored pulse and does
nothing (R165). -/
def execRstRelease (rate1 rate0 : Bool) (s : State) : Outcome :=
  .next (s.onlyIf s.rstLow (s.released (rateOfStraps rate1 rate0)))

/-- CLOCK_STOPS (R165): no event is taken until the clock returns (State.live; log 7). -/
def execClockStops (s : State) : Outcome := .next { s with clockRunning := false }

/-- CLOCK_RETURNS (R165): events are taken again, and every time stands where it was. -/
def execClockReturns (s : State) : Outcome := .next { s with clockRunning := true }

/-! ## Soft reset, block by block (R153 (3)) -/

/-- R2: CLOSED, counters 0, the generation kept. -/
def StreamRec.softReset (r : StreamRec) : StreamRec := { generation := r.generation }

/-- R37: the entries stay as they were. -/
def RingStore.softReset (r : RingStore) : RingStore := { epoch := r.epoch, entries := r.entries }

/-- R141: the framers, the receive buffer and the rate are unchanged. -/
def FeedLink.softReset (l : FeedLink) : FeedLink := { l with sinceReport := 0, lastNotice := 63, counters := {} }

/-- R153 (3): the notice set and the global counters; the reply queue and the table are left to steps (1), (2), (4). -/
def RequestUnit.softReset (u : RequestUnit) : RequestUnit :=
  { u with notices := Vector.replicate 64 {}, link := {}, globals := {} }

/-- Every block's soft reset: R2, R37, R70, R88, R110, R141 and R153. -/
def State.softReset (s : State) : State :=
  { s with
    streams := PerStream.tabulate fun i => (s.stream i).softReset
    ring := s.ring.softReset
    plans := {}
    bus := {}
    coll := {}
    link := s.link.softReset
    req := s.req.softReset }

/-- The reply queue is emptied (R153 (1)). -/
def RequestUnit.emptyReplies (u : RequestUnit) : RequestUnit := { u with replyQueue := [] }

/-- The handling of a RESET frame (R153). -/
def handleReset (f : Frame) (s : State) : State :=
  match formed parseBare f with
  | none => s.refuse f .badForm
  | some _ => (s.withReq s.req.emptyReplies.cancelAll).softReset.replyTo f .done .none

/-- RESET (R153). -/
def execReset (s : State) : Outcome := handleHead .reset handleReset s

end Sys2Proof.Machine
end

