-- ==== Sys2Proof/Machine/Streams.lean ====
section
/-! DEFINITION. The requests that act on stream records: OPEN, CLOSE, RESUME, TUNE, QUERY (R6 to R20, R97 to R99, R119 to R121). -/

namespace Sys2Proof.Machine

/-- A request that names a stream: a number above 63 is refused BAD VALUE (R1), a CLOSED stream NO STREAM; `k` acts on
an open one. -/
def State.onOpen (s : State) (f : Frame) (b : Byte) (k : StreamId → Opening → State) : State :=
  match streamOf b with
  | none => s.refuse f .badValue
  | some i =>
    match s.opening i with
    | none => s.refuse f .noStream
    | some o => k i o

/-! ## OPEN (R6, R7) -/

/-- The ranges of check (2) of R6, less the stream number. -/
def OpenRequest.inRange (q : OpenRequest) : Bool :=
  decide (1 ≤ q.station ∧ q.station ≤ 62 ∧ q.channel ≤ 3 ∧
    (q.ringSize = 32 ∨ q.ringSize = 64 ∨ q.ringSize = 128 ∨ q.ringSize = 256 ∨ q.ringSize = 512) ∧
    1 ≤ q.primeDepth ∧ q.primeDepth ≤ q.ringSize - 1 ∧ 1 ≤ q.starveLimit ∧ q.starveLimit ≤ 31 ∧
    (q.batch.getD 0).toNat ≤ 16)

/-- An open stream that holds a pair (R3). -/
def State.holdsPair (s : State) (station channel : Nat) (j : StreamId) : Bool :=
  match s.opening j with
  | none => false
  | some o => decide (o.station = station ∧ o.channel = channel)

/-- A pair is held by an open stream (R6 (4)); the stream the OPEN names is CLOSED by check (3). -/
def State.pairHeld (s : State) (station channel : Nat) : Bool := allStreams.any (s.holdsPair station channel)

/-- The first of checks (2) to (6) of R6 that fails, after the stream number. -/
def State.openRefusal (s : State) (q : OpenRequest) (i : StreamId) : Option Status :=
  if !q.inRange then some .badValue
  else if (s.opening i).isSome then some .inUse
  else if s.pairHeld q.station q.channel then some .inUse
  else if s.req.tableFull then some .tableFull
  else if s.ring.freeBlocks.length < q.ringSize / 32 then some .noSpace
  else none

/-- The open fields at acceptance (R7 (2) to (7)). -/
def OpenRequest.opening (q : OpenRequest) (blocks : List BlockId) (slots : Nat) : Opening where
  phase := .sweeping
  station := q.station
  channel := q.channel
  ringSize := q.ringSize
  blockMap := blocks
  playPos := q.start
  freshCount := 0
  missRun := 0
  primeDepth := q.primeDepth
  starveLimit := q.starveLimit
  policy := q.policy
  safeValue := q.safeValue
  lastPlayed := q.safeValue
  collectBatch := (q.batch.getD 0).toNat
  mask := q.mask.getD .all
  activeSlots := slots
  silentRun := 0

/-- The record at acceptance: the next generation, counters 0 (R4, R5, R7). -/
def State.openedRecord (s : State) (q : OpenRequest) (i : StreamId) : StreamRec where
  generation := (s.stream i).generation + 1
  counters := {}
  opening := some (q.opening (s.ring.freeBlocks.take (q.ringSize / 32)) (slotsNaming s.plans.active i))

/-- The acceptance of an OPEN (R7); the drop tally is set to 0 (R110). -/
def State.acceptOpen (s : State) (f : Frame) (q : OpenRequest) (i : StreamId) : State :=
  (((s.withStream i (s.openedRecord q i)).withRing ((s.ring.dropHead (q.ringSize / 32)).joinSweep i)).withColl
    (s.coll.setTally i 0)).defer f (.openOf i)

/-- The handling of an OPEN frame (R6, R7). -/
def handleOpen (f : Frame) (s : State) : State :=
  match formed parseOpen f with
  | none => s.refuse f .badForm
  | some q =>
    match streamOf q.stream with
    | none => s.refuse f .badValue
    | some i =>
      match s.openRefusal q i with
      | some status => s.refuse f status
      | none => s.acceptOpen f q i

/-- OPEN (R7). -/
def execOpen (s : State) : Outcome := handleHead .openStream handleOpen s

/-! ## CLOSE (R9 to R12) -/

/-- A close at once with its DONE, after the CANCELLED of the stream's entry (R10). -/
def State.closeNow (s : State) (f : Frame) (i : StreamId) : State := (s.closeStream i false).replyTo f .done .none

/-- A CLOSE with drain by the stream's state (R10, R11). -/
def State.drainOrClose (s : State) (f : Frame) (i : StreamId) (o : Opening) : State :=
  match o.phase with
  | .sweeping => s.closeNow f i
  | .priming => s.closeNow f i
  | .starved => s.closeNow f i
  | .draining => s.refuse f .busy
  | .playing =>
    if o.activeSlots = 0 ∨ s.bus.state = .stopped then s.closeNow f i
    else if s.req.tableFull then s.refuse f .tableFull
    else (s.withOpening i (some { o with phase := .draining })).defer f (.closeOf i)

/-- The handling of a CLOSE frame with drain flag no (R9, R10). -/
def handleCloseAtOnce (f : Frame) (s : State) : State :=
  match formed parseClose f with
  | none => s.refuse f .badForm
  | some (b, _) => s.onOpen f b fun i _ => s.closeNow f i

/-- The handling of a CLOSE frame with drain flag yes (R9 to R11). -/
def handleCloseWithDrain (f : Frame) (s : State) : State :=
  match formed parseClose f with
  | none => s.refuse f .badForm
  | some (b, _) => s.onOpen f b fun i o => s.drainOrClose f i o

/-- CLOSE_AT_ONCE (R10). -/
def execCloseAtOnce (s : State) : Outcome := handleHead .closeAtOnce handleCloseAtOnce s

/-- CLOSE_WITH_DRAIN (R11). -/
def execCloseWithDrain (s : State) : Outcome := handleHead .closeWithDrain handleCloseWithDrain s

/-! ## RESUME (R97 to R99) -/

/-- The phase a RESUME without a start sequence gives (R98 (2)). -/
def Opening.resumedPhase (o : Opening) : Phase := if o.primeDepth ≤ o.freshCount then .playing else .priming

/-- A RESUME without a start sequence (R97 (4), R98); the reply carries the state and, by R161, the generation (log 11). -/
def State.resumePlain (s : State) (f : Frame) (i : StreamId) (o : Opening) : State :=
  if o.phase = .starved then
    (s.withOpening i (some { o with missRun := 0, phase := o.resumedPhase })).replyTo f .done
      (.stateGeneration o.resumedPhase.state (s.stream i).generation)
  else s.replyTo f .wrongState (.state o.phase.state)

/-- The open fields a RESUME with a start sequence leaves (R99 (1) to (3)). -/
def Opening.restarted (o : Opening) (start : Half) : Opening :=
  { o with playPos := some start, freshCount := 0, missRun := 0, phase := .sweeping }

/-- A RESUME with a start sequence (R97 (4), (5), R99). -/
def State.resumeAt (s : State) (f : Frame) (start : Half) (i : StreamId) (o : Opening) : State :=
  if o.phase = .sweeping ∨ o.phase = .draining then s.replyTo f .wrongState (.state o.phase.state)
  else if s.req.tableFull then s.refuse f .tableFull
  else ((s.withOpening i (some (o.restarted start))).withRing (s.ring.joinSweep i)).defer f (.resumeOf i)

/-- The handling of a RESUME frame without a start sequence (R97, R98). -/
def handleResumeWithoutSequence (f : Frame) (s : State) : State :=
  match formed parseResume f with
  | none => s.refuse f .badForm
  | some (b, _) => s.onOpen f b fun i o => s.resumePlain f i o

/-- The handling of a RESUME frame with a start sequence (R97, R99). -/
def handleResumeWithStartSequence (f : Frame) (s : State) : State :=
  match formed parseResume f with
  | none => s.refuse f .badForm
  | some (_, none) => s.refuse f .badForm
  | some (b, some start) => s.onOpen f b fun i o => s.resumeAt f start i o

/-- RESUME_WITHOUT_SEQUENCE (R98). -/
def execResumeWithoutSequence (s : State) : Outcome := handleHead .resumeWithoutSequence handleResumeWithoutSequence s

/-- RESUME_WITH_START_SEQUENCE (R99). -/
def execResumeWithStartSequence (s : State) : Outcome :=
  handleHead .resumeWithStartSequence handleResumeWithStartSequence s

/-! ## TUNE (R14 to R17, R119 to R121) -/

/-- The ranges of check (5) of R14. -/
def TuneRequest.inRange (q : TuneRequest) (ringSize : Nat) : Bool :=
  (match q.primeDepth with
    | none => true
    | some p => decide (1 ≤ p.toNat ∧ p.toNat ≤ ringSize - 1)) &&
  (match q.starveLimit with
    | none => true
    | some l => decide (1 ≤ l.toNat ∧ l.toNat ≤ 31)) &&
  (match q.batch with
    | none => true
    | some b => decide (b.toNat ≤ 16))

/-- The fields a TUNE writes; an absent one is left as it is (R14, R15). -/
def Opening.tuned (o : Opening) (q : TuneRequest) : Opening :=
  { o with
    primeDepth := (q.primeDepth.map BitVec.toNat).getD o.primeDepth
    starveLimit := (q.starveLimit.map BitVec.toNat).getD o.starveLimit
    policy := q.policy.getD o.policy
    safeValue := q.safeValue.getD o.safeValue
    collectBatch := (q.batch.map BitVec.toNat).getD o.collectBatch
    mask := q.mask.getD o.mask }

/-- A TUNE that sets the batch to 0, after the stream has left the stall list (R121 (2) to (4)). -/
def State.turnOff (s : State) (i : StreamId) : State :=
  if s.coll.buffers.at i = [] then s
  else if s.coll.queue.length < 12 then s.withColl (s.coll.form i (s.stream i).generation true)
  else
    (s.withCounters i { s.counters i with collectDropped :=
      (s.counters i).collectDropped + BitVec.ofNat 32 (s.coll.buffers.at i).length }).withColl
      ((s.coll.discard i).setTally i (s.coll.tallies.at i + (s.coll.buffers.at i).length))

/-- What a TUNE that changes the batch from `old` to `new` does to the collection (R119 to R121). -/
def State.retuneBatch (s : State) (i : StreamId) (old new : Nat) : State :=
  if new = old then s
  else if new = 0 then (s.withColl (s.coll.unstall i)).turnOff i
  else if old < new then
    if (s.coll.buffers.at i).length < new then s.withColl (s.coll.unstall i) else s
  else if i ∈ s.coll.stallList then s
  else if new ≤ (s.coll.buffers.at i).length then s.withColl (s.coll.fillUp i (s.stream i).generation)
  else s

/-- Comparison (1) of R16: a PRIMING stream whose fresh count is at least its prime depth plays. -/
def State.comparePlay (s : State) (i : StreamId) : State :=
  match s.opening i with
  | none => s
  | some o => if o.phase = .priming ∧ o.primeDepth ≤ o.freshCount then s.startPlaying i o else s

/-- Comparison (2) of R16: a PLAYING stream whose miss run is at least its starve limit starves. -/
def State.compareStarve (s : State) (i : StreamId) : State :=
  match s.opening i with
  | none => s
  | some o => if o.phase = .playing ∧ o.starveLimit ≤ o.missRun then s.starve i o else s

/-- The two comparisons of R16, in order, on the fields the TUNE left. -/
def State.compareTuned (s : State) (i : StreamId) : State := (s.comparePlay i).compareStarve i

/-- A TUNE in one claim: its fields, the notice set (R17), the collection (R119 to R121), the comparisons (R16). -/
def State.applyTune (s : State) (q : TuneRequest) (i : StreamId) (o : Opening) : State :=
  (((s.withOpening i (some (o.tuned q))).withNotices i ((s.noticesOf i).remask o.mask (o.tuned q).mask)).retuneBatch i
    o.collectBatch (o.tuned q).collectBatch).compareTuned i

/-- A TUNE's checks (4) and (5), and its reply with the state it leaves (R14). -/
def State.tuneStream (s : State) (f : Frame) (q : TuneRequest) (i : StreamId) (o : Opening) : State :=
  if o.phase = .sweeping ∨ o.phase = .draining then s.refuse f .wrongState
  else if !q.inRange o.ringSize then s.refuse f .badValue
  else (s.applyTune q i o).replyTo f .done (.state ((s.applyTune q i o).stream i).state)

/-- The handling of a TUNE frame (R14). -/
def handleTune (f : Frame) (s : State) : State :=
  match formed parseTune f with
  | none => s.refuse f .badForm
  | some q => s.onOpen f q.stream fun i o => s.tuneStream f q i o

/-- TUNE (R14). -/
def execTune (s : State) : Outcome := handleHead .tune handleTune s

/-! ## QUERY (R18) -/

/-- The snapshot of a record (R18). -/
def State.snapshot (s : State) (i : StreamId) : ReplyResult :=
  match s.opening i with
  | none => .closedSnapshot (s.stream i).generation
  | some o => .openSnapshot (s.stream i).generation
      { opening := o, buffered := (s.coll.buffers.at i).length, stalled := decide (i ∈ s.coll.stallList) }

/-- The handling of a QUERY frame (R18). -/
def handleQuery (f : Frame) (s : State) : State :=
  match formed parseStream f with
  | none => s.refuse f .badForm
  | some b =>
    match streamOf b with
    | none => s.refuse f .badValue
    | some i => s.replyTo f .done (s.snapshot i)

/-- QUERY (R18). -/
def execQuery (s : State) : Outcome := handleHead .query handleQuery s

end Sys2Proof.Machine
end

