-- ==== Sys2Proof/Machine/Sweep.lean ====
section
/-! DEFINITION. The sweep engine at work (R32, R33). -/

namespace Sys2Proof.Machine

/-- The reply that ends a sweep (R33 (3), R149, R161): an OPEN's carries the generation, a RESUME's the state too (log 11). -/
def sweptReply (generation : Byte) (e : PendingEntry) : Reply :=
  match e.job with
  | .resumeOf _ => e.reply .done (.stateGeneration .priming generation)
  | .openOf _ => e.reply .done (.generation generation)
  | .closeOf _ => e.reply .done .none
  | .swap => e.reply .done .none
  | .halt => e.reply .done .none

/-- The record at the completion of its sweep (R33 (1), (2)). -/
def Opening.swept (o : Opening) : Opening := { o with phase := .priming, freshCount := 0, missRun := 0 }

/-- The claim on the record at the completion of a sweep, and the engine free after it (R33). -/
def State.sweepDone (s : State) (i : StreamId) (o : Opening) : State :=
  let t := s.withOpening i (some o.swept)
  let u := t.withReq (t.req.answer (fun e => decide (e.job.stream = some i)) (sweptReply (s.stream i).generation))
  u.withRing u.ring.engineFree

/-- The engine has voided one block more. -/
def RingStore.voidedOne (r : RingStore) (i : StreamId) (voided : Nat) (b : BlockId) : RingStore :=
  { r.voidBlock b with engine := .busy i (voided + 1) }

/-- The next block of the stream under sweep is voided; after the last one the sweep is done (R32, R33). -/
def State.voidNext (s : State) (i : StreamId) (voided : Nat) : State :=
  match s.opening i with
  | none => s
  | some o =>
    match o.blockMap[voided]? with
    | none => s
    | some b =>
      if voided + 1 = o.blockMap.length then (s.withRing (s.ring.voidedOne i voided b)).sweepDone i o
      else s.withRing (s.ring.voidedOne i voided b)

/-- BLOCK_VOIDED (R32): an IDLE engine voids nothing. -/
def execBlockVoided (s : State) : Outcome :=
  .next (match s.ring.engine with
    | .idle => s
    | .busy i voided => s.onlyIf s.live (s.voidNext i voided))

end Sys2Proof.Machine
end

