-- ==== Sys2Proof/Machine/Transmit.lean ====
section
/-! DEFINITION. The transmit arbiter and the transmit framer (R116, R134 to R139, R156). -/

namespace Sys2Proof.Machine

/-- What a pick may choose (R137). -/
inductive PickChoice where
  | report
  | reply
  | linkNotice
  | streamNotice (i : StreamId) (k : NoticeKind)
deriving DecidableEq, Repr

/-- The streams in the order of the round: from the one after last notice stream on (R138). -/
def noticeRound (last : StreamId) : List StreamId := allStreams.map fun k => last + 1 + k

/-- The first pending notice of a stream, with the stream. -/
def State.pendingNotice (s : State) (i : StreamId) : Option (StreamId × NoticeKind) :=
  (s.noticesOf i).firstPending.map fun k => (i, k)

/-- The stream notice the round finds (R138). -/
def State.noticeChoice (s : State) : Option (StreamId × NoticeKind) :=
  (noticeRound s.link.lastNotice).findSome? s.pendingNotice

/-- The choice of a pick, if a source holds a frame (R136, R137). -/
def State.pickChoice (s : State) : Option PickChoice :=
  if s.link.sinceReport = 4 ∧ s.coll.queue ≠ [] then some .report
  else if s.req.replyQueue ≠ [] then some .reply
  else if s.req.link.flag then some .linkNotice
  else
    match s.noticeChoice with
    | some (i, k) => some (.streamNotice i k)
    | none => if s.coll.queue ≠ [] then some .report else none

/-- At least one source holds a frame to send (R136). -/
def State.sourceHolds (s : State) : Bool :=
  !s.req.replyQueue.isEmpty || s.req.link.flag || allStreams.any (fun i => (s.noticesOf i).firstPending.isSome) ||
    !s.coll.queue.isEmpty

/-- The credits byte: the free places of the receive buffer (R134). -/
def State.credits (s : State) : Nat := 8 - s.link.rxBuf.length

/-- The transmit framer becomes SENDING with the frame of a body (R135, R136). -/
def State.send (s : State) (body : List Byte) : State :=
  s.withLink { s.link with tx := .sending (frameBytes body) }

/-- Frames since report after a frame that is no report (R137). -/
def State.countFrame (s : State) : State :=
  s.withLink { s.link with sinceReport := min (s.link.sinceReport + 1) 4 }

/-- Frames since report after a report (R137). -/
def State.clearSince (s : State) : State := s.withLink { s.link with sinceReport := 0 }

/-- The stall list head, if any, is handed on when a report leaves the queue (R116). -/
def State.releaseStall (s : State) : State :=
  match s.coll.stallList with
  | [] => s
  | j :: rest => s.withColl (({ s.coll with stallList := rest } : Collector).form j (s.stream j).generation false)

/-- A report is picked (R139 (3)). -/
def State.pickReport (s : State) : State :=
  match s.coll.queue with
  | [] => s
  | r :: rest => (((s.withColl { s.coll with queue := rest }).releaseStall).clearSince).send (r.body s.credits)

/-- A reply is picked (R139 (1)). -/
def State.pickReply (s : State) : State :=
  match s.req.replyQueue with
  | [] => s
  | r :: rest => ((s.withReq { s.req with replyQueue := rest }).countFrame).send (r.body s.credits)

/-- The LINK notice is picked: its flag and count are cleared (R133, R156). -/
def State.pickLink (s : State) : State :=
  ((s.withReq { s.req with link := .clear }).countFrame).send (linkNoticeBody s.credits s.req.link.count)

/-- A stream notice is picked: its flag and count are cleared, and last notice stream is its stream (R138, R156). -/
def State.pickNotice (s : State) (i : StreamId) (k : NoticeKind) : State :=
  let t := (s.withNotices i ((s.noticesOf i).setCell k .clear)).countFrame
  (t.withLink { t.link with lastNotice := i }).send
    (noticeBody s.credits k i ((s.noticesOf i).cell k).count (s.stream i).state)

/-- The pick of a choice (R136, R139). -/
def State.pickOf (s : State) : PickChoice → State
  | .report => s.pickReport
  | .reply => s.pickReply
  | .linkNotice => s.pickLink
  | .streamNotice i k => s.pickNotice i k

/-- PICK (R136): due when the transmit framer is IDLE and a source holds a frame. -/
def execPick (s : State) : Outcome :=
  .next (match s.pickChoice with
    | none => s
    | some c => s.onlyIf (s.live && decide (s.link.tx = .idle)) (s.pickOf c))

/-- The bit times of the run before the next frame, once the bytes of a frame have gone out: the run goes on when a source
holds a frame, which then follows with no gap, and ends otherwise (R125, R135; log 16). -/
def State.runAfter (s : State) (bytes : List Byte) : Nat :=
  if s.sourceHolds then s.link.runSent + 10 * bytes.length else 0

/-- The frame being sent, of the given bytes, has gone out (R135). -/
def State.frameOut (s : State) (bytes : List Byte) : State :=
  s.withLink { s.link with
    tx := .idle
    runSent := s.runAfter bytes
    counters := { s.link.counters with framesSent := s.link.counters.framesSent + 1 } }

/-- FRAME_SENT (R135). -/
def execFrameSent (s : State) : Outcome :=
  .next (match s.link.tx with
    | .idle => s
    | .sending bytes => s.onlyIf s.live (s.frameOut bytes))

end Sys2Proof.Machine
end

