-- ==== Sys2Proof/Machine/Dispatch.lean ====
section
/-! DEFINITION. The dispatch: one arm per command. -/

namespace Sys2Proof.Machine

def exec (i : Instr) (s : State) : Host.Outcome State Fault Refusal :=
  match i with
  | .powerOnReset cause rate1 rate0 => Sys2Proof.Machine.execPowerOnReset cause rate1 rate0 s
  | .rstRelease rate1 rate0 => Sys2Proof.Machine.execRstRelease rate1 rate0 s
  | .syncByte => Sys2Proof.Machine.execSyncByte s
  | .huntByte b => Sys2Proof.Machine.execHuntByte b s
  | .lengthByte b => Sys2Proof.Machine.execLengthByte b s
  | .bodyByte b => Sys2Proof.Machine.execBodyByte b s
  | .highCheckByte b => Sys2Proof.Machine.execHighCheckByte b s
  | .lowCheckByte b => Sys2Proof.Machine.execLowCheckByte b s
  | .interByteTimeout => Sys2Proof.Machine.execInterByteTimeout s
  | .hello => Sys2Proof.Machine.execHello s
  | .openStream => Sys2Proof.Machine.execOpen s
  | .closeAtOnce => Sys2Proof.Machine.execCloseAtOnce s
  | .closeWithDrain => Sys2Proof.Machine.execCloseWithDrain s
  | .resumeWithoutSequence => Sys2Proof.Machine.execResumeWithoutSequence s
  | .resumeWithStartSequence => Sys2Proof.Machine.execResumeWithStartSequence s
  | .tune => Sys2Proof.Machine.execTune s
  | .query => Sys2Proof.Machine.execQuery s
  | .counters => Sys2Proof.Machine.execCounters s
  | .flush => Sys2Proof.Machine.execFlush s
  | .stage => Sys2Proof.Machine.execStage s
  | .swap => Sys2Proof.Machine.execSwap s
  | .start => Sys2Proof.Machine.execStart s
  | .halt => Sys2Proof.Machine.execHalt s
  | .period => Sys2Proof.Machine.execPeriod s
  | .reset => Sys2Proof.Machine.execReset s
  | .bundle => Sys2Proof.Machine.execBundle s
  | .unknownKind => Sys2Proof.Machine.execUnknownKind s
  | .blockVoided => Sys2Proof.Machine.execBlockVoided s
  | .cycleStart => Sys2Proof.Machine.execCycleStart s
  | .slotEvent => Sys2Proof.Machine.execSlotEvent s
  | .slotOutcome ret => Sys2Proof.Machine.execSlotOutcome ret s
  | .pick => Sys2Proof.Machine.execPick s
  | .frameSent => Sys2Proof.Machine.execFrameSent s
  | .clockStops => Sys2Proof.Machine.execClockStops s
  | .clockReturns => Sys2Proof.Machine.execClockReturns s

end Sys2Proof.Machine
end

