-- ==== Sys2Proof/WellFormed.lean ====
section
/-! DEFINITION. Which command terms name an event the spec describes. -/

namespace Sys2Proof

/-- A reset cause that resets: a low pulse of RST shorter than 1 µs is ignored (R165). -/
def ResetCause.wf : ResetCause → Bool
  | .power _ => true
  | .rstLow ns => decide (1000 ≤ ns)

/-- Well-formed commands: a hunt byte is not the sync byte (R127); a return frame has at most 9 bytes (R164);
a reset cause resets (R165). Every other operand may hold any value. -/
def Instr.wf : Instr → Bool
  | .powerOnReset cause _ _ => cause.wf
  | .rstRelease _ _ => true
  | .syncByte => true
  | .huntByte b => decide (b ≠ 0xB4#8)
  | .lengthByte _ => true
  | .bodyByte _ => true
  | .highCheckByte _ => true
  | .lowCheckByte _ => true
  | .interByteTimeout => true
  | .hello => true
  | .openStream => true
  | .closeAtOnce => true
  | .closeWithDrain => true
  | .resumeWithoutSequence => true
  | .resumeWithStartSequence => true
  | .tune => true
  | .query => true
  | .counters => true
  | .flush => true
  | .stage => true
  | .swap => true
  | .start => true
  | .halt => true
  | .period => true
  | .reset => true
  | .bundle => true
  | .unknownKind => true
  | .blockVoided => true
  | .cycleStart => true
  | .slotEvent => true
  | .slotOutcome ret => decide ((ret.getD []).length ≤ 9)
  | .pick => true
  | .frameSent => true
  | .clockStops => true
  | .clockReturns => true

end Sys2Proof
end

