-- ==== Sys2Proof/Safety.lean ====
section
/-! DEFINITION. The laws the part keeps, in the terms claims use, and the runs claims speak of. -/

namespace Sys2Proof.Machine

/-- The canonical form of the Ring Store's list: entry numbers strictly rising and below 8192 (R21). -/
abbrev RingStore.wf (r : RingStore) : Prop :=
  (r.entries.map Prod.fst).Pairwise (· < ·) ∧ ∀ k ∈ r.entries.map Prod.fst, k < 8192

/-- The replies queued and the pending entries never exceed 16 together, nor the entries 8 (R145, R148). -/
abbrev State.repliesFit (s : State) : Prop :=
  s.req.replyQueue.length + s.req.pendingTable.length ≤ 16 ∧ s.req.pendingTable.length ≤ 8

/-- The capacities of the receive buffer and the report queue, and the range of frames since report (R132, R115, R137). -/
abbrev State.queuesFit (s : State) : Prop :=
  s.link.rxBuf.length ≤ 8 ∧ s.coll.queue.length ≤ 12 ∧ s.link.sinceReport ≤ 4

/-- No two open streams share a (station, channel) pair (R3). -/
def State.pairsDistinct (s : State) : Prop :=
  ∀ i j oi oj, s.opening i = some oi → s.opening j = some oj →
    oi.station = oj.station → oi.channel = oj.channel → i = j

/-- The blocks of a stream: its block map while open. -/
def State.blocksOf (s : State) (i : StreamId) : List BlockId :=
  match s.opening i with
  | none => []
  | some o => o.blockMap

/-- The free blocks and the blocks of all open streams. -/
def State.allBlocks (s : State) : List BlockId := s.ring.freeBlocks ++ allStreams.flatMap s.blocksOf

/-- Every block number appears exactly once across the free block list and the block maps (R26). -/
def State.blocksOnce (s : State) : Prop := ∀ b, s.allBlocks.count b = 1

/-- The miss run of an open stream against its starve limit: below it while PLAYING or DRAINING, 0 before playing,
never above 31 (R94; spec 01, 1-2). -/
def Opening.missOk (o : Opening) : Prop :=
  1 ≤ o.starveLimit ∧ o.starveLimit ≤ 31 ∧ o.missRun ≤ 31 ∧
    (o.phase = .sweeping ∨ o.phase = .priming → o.missRun = 0) ∧
    (o.phase = .playing ∨ o.phase = .draining → o.missRun < o.starveLimit)

/-- Every open stream's miss run is as R94 says. -/
def State.missRunsOk (s : State) : Prop := ∀ i o, s.opening i = some o → o.missOk

/-- A stream is SWEEPING. -/
def State.isSweeping (s : State) (i : StreamId) : Prop := ∃ o, s.opening i = some o ∧ o.phase = .sweeping

/-- The sweep engine works on a stream. -/
def RingStore.sweeps (r : RingStore) (i : StreamId) : Prop := ∃ v, r.engine = .busy i v

/-- The sweep queue holds exactly the SWEEPING streams the engine is not working on, once each; the engine works on a
SWEEPING stream; an idle engine leaves no queue (R29, R31). -/
def State.sweepsOk (s : State) : Prop :=
  s.ring.sweepQueue.Nodup ∧
    (∀ i, i ∈ s.ring.sweepQueue ↔ s.isSweeping i ∧ ¬ s.ring.sweeps i) ∧
    (∀ i, s.ring.sweeps i → s.isSweeping i) ∧
    (s.ring.engine = .idle → s.ring.sweepQueue = [])

/-- A plan the Plan Store may hold under a period: at most 96 slots, no stream more than 8 times, and it fits (R57 to R59). -/
def Plan.ok (p : Plan) (period : Nat) : Prop :=
  p.length ≤ 96 ∧ (∀ i, slotsNaming p i ≤ 8) ∧ fitsPeriod p.length period = true

/-- The Plan Store's laws: both plans fit the period; while the bus runs the active plan is not empty; a swap is pending
only while the bus runs, and then the staged plan is not empty (R59, R60, R63, R65). -/
def State.plansOk (s : State) : Prop :=
  Plan.ok s.plans.active s.bus.period ∧ Plan.ok s.plans.staged s.bus.period ∧
    (s.bus.state ≠ .stopped → s.plans.active ≠ []) ∧
    (s.plans.swapPending = true → s.bus.state ≠ .stopped ∧ s.plans.staged ≠ [])

/-- The active slots of every open stream are the entries of the active plan that name it (R19, R58). -/
def State.slotsCounted (s : State) : Prop :=
  ∀ i o, s.opening i = some o → o.activeSlots = slotsNaming s.plans.active i

/-- A set flag stands with a count of at least 1, a clear one with 0 (R155). -/
def NoticeCell.ok (c : NoticeCell) : Prop := c.flag = true ↔ c.count ≠ 0

/-- Every cell of the notice set is so (R155). -/
def State.noticesOk (s : State) : Prop :=
  s.req.link.ok ∧ ∀ i, (s.noticesOf i).state.ok ∧ (s.noticesOf i).discard.ok ∧ (s.noticesOf i).silent.ok

/-- A stream's buffer is full: collection is on and it holds at least batch records (R113). -/
def State.bufferFull (s : State) (i : StreamId) : Prop :=
  ∃ o, s.opening i = some o ∧ o.collectBatch ≠ 0 ∧ o.collectBatch ≤ (s.coll.buffers.at i).length

/-- The laws of the Return Collector: the stall list holds exactly the streams with full buffers, once each, and is empty
unless the report queue is full; a closed stream and one whose collection is off have empty buffers; no batch and no
buffer exceeds 16 (R110, R112, R113). -/
def State.stallsOk (s : State) : Prop :=
  s.coll.stallList.Nodup ∧ (∀ i, i ∈ s.coll.stallList ↔ s.bufferFull i) ∧
    (s.coll.stallList ≠ [] → s.coll.queue.length = 12) ∧ s.coll.queue.length ≤ 12 ∧
    (∀ i, s.opening i = none → s.coll.buffers.at i = []) ∧
    (∀ i o, s.opening i = some o → o.collectBatch ≤ 16 ∧ (o.collectBatch = 0 → s.coll.buffers.at i = [])) ∧
    (∀ i, (s.coll.buffers.at i).length ≤ 16)

/-- The stream has an operation that an entry of the pending table waits for (R148). -/
def State.awaits (s : State) (i : StreamId) : Prop :=
  ∃ o, s.opening i = some o ∧ (o.phase = .sweeping ∨ o.phase = .draining)

/-- The entry kinds fit the stream's state: OPEN and RESUME for a SWEEPING stream, CLOSE for a DRAINING one (R148). -/
def State.jobFits (s : State) : PendingJob → Prop
  | .openOf i => s.isSweeping i
  | .resumeOf i => s.isSweeping i
  | .closeOf i => ∃ o, s.opening i = some o ∧ o.phase = .draining
  | .swap => s.plans.swapPending = true
  | .halt => s.bus.state = .halting

/-- The pending reply table (R148): one entry for each SWEEPING or DRAINING stream, one for a pending swap, one for a
deferred HALT, each of the right kind, and no other. -/
def State.pendingOk (s : State) : Prop :=
  (∀ e ∈ s.req.pendingTable, s.jobFits e.job) ∧
    (∀ i, s.awaits i → s.req.pendingTable.countP (fun e => decide (e.job.stream = some i)) = 1) ∧
    s.req.pendingTable.countP (fun e => decide (e.job = .swap)) = (if s.plans.swapPending then 1 else 0) ∧
    s.req.pendingTable.countP (fun e => decide (e.job = .halt)) = (if s.bus.state = .halting then 1 else 0)

/-- A ring's shape: its block map holds ring size / 32 blocks, and the ring size is one of the five (R23, R27). -/
def Opening.shapeOk (o : Opening) : Prop :=
  (o.ringSize = 32 ∨ o.ringSize = 64 ∨ o.ringSize = 128 ∨ o.ringSize = 256 ∨ o.ringSize = 512) ∧
    o.blockMap.length * 32 = o.ringSize

/-- Every open stream's ring has its shape. -/
def State.ringsShaped (s : State) : Prop := ∀ i o, s.opening i = some o → o.shapeOk

/-- The entry at ring index `x` is held. -/
def State.heldAt (s : State) (o : Opening) (x : Nat) : Bool :=
  match o.ringEntry x with
  | none => false
  | some k => (s.ring.read k).held

/-- The tag of a held entry at ring index `x` lies in the window and belongs there (R25 (1)). -/
def State.tagFits (s : State) (o : Opening) (x : Nat) : Prop :=
  ∃ p k, o.playPos = some p ∧ o.ringEntry x = some k ∧ 0 ≤ seqDist (s.ring.read k).tag p ∧
    seqDist (s.ring.read k).tag p < o.ringSize ∧ (s.ring.read k).tag.toNat % o.ringSize = x

/-- The two laws of R25 for one stream: each held entry's tag lies in the window and belongs at its index, so an adopting
stream has none; the fresh count is the number of held entries. -/
def State.ringLaws (s : State) (o : Opening) : Prop :=
  (∀ x < o.ringSize, s.heldAt o x = true → s.tagFits o x) ∧
    o.freshCount = ((List.range o.ringSize).filter (s.heldAt o)).length

/-- The laws of the Ring Store's contents: R25 for every open stream that is not SWEEPING, and for the stream under sweep
no entry held in the blocks already voided (R32). -/
def State.contentsOk (s : State) : Prop :=
  (∀ i o, s.opening i = some o → o.phase ≠ .sweeping → s.ringLaws o) ∧
    ∀ i v o, s.ring.engine = .busy i v → s.opening i = some o → ∀ x < 32 * v, s.heldAt o x = false

/-- The laws of the Cycle Engine's state (R71, R73 to R75, R84, R85): in STOPPED no timer, no cycle, no slot and no frame
on the bus; otherwise a timer; HALTING only with a cycle in progress; the slot count stands exactly in a cycle and is the
active plan's; a slot in flight is the latest one of the cycle in progress; a cycle with none in flight has slots left. -/
def State.busOk (s : State) : Prop :=
  (s.bus.state = .stopped →
    s.bus.cycleTimer = none ∧ s.bus.inProgress = false ∧ s.bus.slotInFlight = none ∧ s.bus.busTx = none) ∧
  (s.bus.state ≠ .stopped → s.bus.cycleTimer.isSome = true) ∧
  (s.bus.state = .halting → s.bus.inProgress = true) ∧
  s.bus.slotCount = (if s.bus.inProgress then some s.plans.active.length else none) ∧
  (∀ r, s.bus.slotInFlight = some r → s.bus.inProgress = true ∧ r.index + 1 = s.bus.nextSlot ∧
    s.bus.nextSlot ≤ s.plans.active.length) ∧
  (s.bus.inProgress = true → s.bus.slotInFlight = none → s.bus.nextSlot < s.plans.active.length)

/-- While the bus is STOPPED no stream is DRAINING (R64, R104). -/
def State.drainsOk (s : State) : Prop :=
  s.bus.state = .stopped → ∀ i o, s.opening i = some o → o.phase ≠ .draining

/-! ## Requests and their answers -/

/-- The head of the receive buffer is `f`, with `rest` behind it, and the Request Unit can take it now: the part takes
events, no frame is being handled, and there is a reply place if `f` needs a reply (R144). -/
def State.canTake (s : State) (f : Frame) (rest : List Frame) : Prop :=
  s.clockRunning = true ∧ s.rstLow = false ∧ s.req.handling = none ∧ s.link.rxBuf = f :: rest ∧
    (needsReply f = true → s.req.replyQueue.length + s.req.pendingTable.length ≤ 15)

/-- The state with only `rest` left in the receive buffer (R132, R144). -/
def State.without (s : State) (rest : List Frame) : State := { s with link := { s.link with rxBuf := rest } }

/-- The state with a reply at the tail of the reply queue (R147). -/
def State.queued (s : State) (r : Reply) : State :=
  { s with req := { s.req with replyQueue := s.req.replyQueue ++ [r] } }

/-- The state with an entry at the tail of the pending reply table (R148). -/
def State.entered (s : State) (e : PendingEntry) : State :=
  { s with req := { s.req with pendingTable := s.req.pendingTable ++ [e] } }

/-- A LINK fault (R133): the LINK flag is set and its count rises by 1, holding at FFFFFFFFH (R142). -/
def State.linkRaised (s : State) : State :=
  { s with req := { s.req with
      link := { flag := true, count := if s.req.link.count = 0xFFFFFFFF#32 then 0xFFFFFFFF#32 else s.req.link.count + 1 } } }

/-- The part is in service: its clock runs and RST is not low (R141, R165). -/
def State.inService (s : State) : Prop := s.clockRunning = true ∧ s.rstLow = false

/-- The optional fields of a body, one after the other (R160). -/
def optBytes {α : Type} (f : α → List Byte) : Option α → List Byte
  | none => []
  | some x => f x

/-- The presence bit of an optional field. -/
def presenceBit {α : Type} (weight : Nat) (x : Option α) : Nat := if x.isSome then weight else 0

/-- The body of an OPEN from offset 2 (R160). -/
def OpenRequest.bytes (q : OpenRequest) : List Byte :=
  [q.stream, byteOf q.station, byteOf q.channel] ++ num16 q.ringSize ++ num16 q.primeDepth ++
  [byteOf q.starveLimit, q.policy.code] ++ bytes32 q.safeValue ++
  [byteOf (presenceBit 1 q.start + presenceBit 2 q.batch + presenceBit 4 q.mask)] ++
  optBytes bytes16 q.start ++ optBytes (fun b => [b]) q.batch ++ optBytes (fun m => [m.code]) q.mask

/-- The widths of the numbers in an OPEN body (R160). -/
def OpenRequest.fits (q : OpenRequest) : Prop :=
  q.station < 256 ∧ q.channel < 256 ∧ q.ringSize < 65536 ∧ q.primeDepth < 65536 ∧ q.starveLimit < 256

/-- The body of a TUNE from offset 2 (R160). -/
def TuneRequest.bytes (q : TuneRequest) : List Byte :=
  [q.stream,
   byteOf (presenceBit 1 q.primeDepth + presenceBit 2 q.starveLimit + presenceBit 4 q.policy + presenceBit 8 q.safeValue +
     presenceBit 16 q.batch + presenceBit 32 q.mask)] ++
  optBytes bytes16 q.primeDepth ++ optBytes (fun b => [b]) q.starveLimit ++ optBytes (fun p => [p.code]) q.policy ++
  optBytes bytes32 q.safeValue ++ optBytes (fun b => [b]) q.batch ++ optBytes (fun m => [m.code]) q.mask

/-- A TUNE carries at least one optional field (R14 (1)). -/
def TuneRequest.carries (q : TuneRequest) : Prop :=
  q.primeDepth.isSome = true ∨ q.starveLimit.isSome = true ∨ q.policy.isSome = true ∨ q.safeValue.isSome = true ∨
    q.batch.isSome = true ∨ q.mask.isSome = true

/-- The body of a BUNDLE from offset 2 (R160). -/
def BundleRequest.bytes (q : BundleRequest) : List Byte :=
  [byteOf q.stream.val] ++ bytes16 q.first ++ [byteOf q.values.length] ++ q.values.flatMap bytes32

/-- The field ranges of an OPEN (R6 (2)). -/
def OpenRequest.rangesGood (q : OpenRequest) : Prop :=
  q.stream.toNat < 64 ∧ 1 ≤ q.station ∧ q.station ≤ 62 ∧ q.channel ≤ 3 ∧
    (q.ringSize = 32 ∨ q.ringSize = 64 ∨ q.ringSize = 128 ∨ q.ringSize = 256 ∨ q.ringSize = 512) ∧
    1 ≤ q.primeDepth ∧ q.primeDepth + 1 ≤ q.ringSize ∧ 1 ≤ q.starveLimit ∧ q.starveLimit ≤ 31 ∧
    ∀ b, q.batch = some b → b.toNat ≤ 16

/-- The pair an OPEN names is held by an open stream (R6 (4)). -/
def State.pairTaken (s : State) (q : OpenRequest) : Prop :=
  ∃ j o, s.opening j = some o ∧ o.station = q.station ∧ o.channel = q.channel

/-- The field ranges of a TUNE for a ring size (R14 (5)). -/
def TuneRequest.rangesGood (q : TuneRequest) (ringSize : Nat) : Prop :=
  (∀ p, q.primeDepth = some p → 1 ≤ p.toNat ∧ p.toNat + 1 ≤ ringSize) ∧
    (∀ l, q.starveLimit = some l → 1 ≤ l.toNat ∧ l.toNat ≤ 31) ∧ ∀ b, q.batch = some b → b.toNat ≤ 16

/-- A TUNE that passes the checks of R14: `q` is the request in the head frame `f`, for the open stream `i` with fields `o`. -/
def State.tunes (s : State) (f : Frame) (rest : List Frame) (q : TuneRequest) (i : StreamId) (o : Opening) : Prop :=
  s.canTake f rest ∧ kindOf f = 0x05 ∧ tagOf f ≠ 0 ∧ parseTune f = some q ∧ q.stream.toNat = i.val ∧
    s.opening i = some o ∧ o.phase ≠ .sweeping ∧ o.phase ≠ .draining ∧ q.rangesGood o.ringSize

/-! ## Closing a stream, ending drains, stopping -/

/-- An entry of the pending table is of stream `i`. -/
def PendingEntry.isOf (e : PendingEntry) (i : StreamId) : Bool := decide (e.job.stream = some i)

/-- The reply that the close of stream `i` gives its entry (R12 (7)): DONE for a drain that has ended, else CANCELLED. -/
def PendingEntry.closeReply (e : PendingEntry) (i : StreamId) (drainEnded : Bool) : Reply where
  tag := e.tag
  kind := e.job.kind
  status := if drainEnded = true ∧ e.job = .closeOf i then .done else .cancelled
  stream := byteOf i.val
  result := .none

/-- `t` is `s` with the open stream `i`, whose fields were `o`, closed by the effects of R12. -/
def State.closesTo (s : State) (i : StreamId) (o : Opening) (drainEnded : Bool) (t : State) : Prop :=
  t.streams = s.streams.put i { s.stream i with opening := none } ∧
  t.ring.entries = s.ring.entries ∧ t.ring.epoch = s.ring.epoch ∧ t.ring.freeBlocks = s.ring.freeBlocks ++ o.blockMap ∧
  (s.ring.sweeps i → t.ring.sweepQueue = s.ring.sweepQueue.tail ∧
    t.ring.engine = (match s.ring.sweepQueue with | [] => .idle | j :: _ => .busy j 0)) ∧
  (¬ s.ring.sweeps i → t.ring.sweepQueue = s.ring.sweepQueue.erase i ∧ t.ring.engine = s.ring.engine) ∧
  t.req.notices = s.req.notices.put i {} ∧
  t.coll.stallList = s.coll.stallList.erase i ∧ t.coll.buffers = s.coll.buffers.put i [] ∧
  t.coll.tallies = s.coll.tallies.put i 0 ∧
  t.coll.queue = s.coll.queue ++
    (if s.coll.buffers.at i ≠ [] ∧ s.coll.queue.length < 12 then
      [{ stream := i, generation := (s.stream i).generation, final := true, dropped := s.coll.tallies.at i,
         records := s.coll.buffers.at i }] else []) ∧
  t.req.globals = { s.req.globals with collectLostAtClose := s.req.globals.collectLostAtClose +
    (if 12 ≤ s.coll.queue.length then BitVec.ofNat 32 (s.coll.buffers.at i).length else 0) } ∧
  t.req.pendingTable = s.req.pendingTable.eraseP (·.isOf i) ∧
  t.req.replyQueue = s.req.replyQueue ++ ((s.req.pendingTable.find? (·.isOf i)).map (·.closeReply i drainEnded)).toList ∧
  t.plans = s.plans ∧ t.bus = s.bus ∧ t.link = s.link ∧ t.req.link = s.req.link ∧ t.req.handling = s.req.handling ∧
  t.clockRunning = s.clockRunning ∧ t.rstLow = s.rstLow ∧ t.pending = s.pending

/-- Stream `i` is DRAINING. -/
def State.isDraining (s : State) (i : StreamId) : Bool :=
  match s.opening i with
  | none => false
  | some o => decide (o.phase = .draining)

/-- The replies of the drains that end together, in ascending stream number order (R103, R104). -/
def State.drainReplies (s : State) (ends : StreamId → Bool) : List Reply :=
  (allStreams.filter ends).filterMap fun i => (s.req.pendingTable.find? (·.isOf i)).map (·.closeReply i true)

/-- The entry of a pending swap. -/
def PendingEntry.isSwap (e : PendingEntry) : Bool := decide (e.job = .swap)

/-- The DONE of a pending swap, if the table holds its entry: the slots of the plan that becomes active, and a cycle
number or none (R66, R67). -/
def State.swapReplies (s : State) (cycle : Option Half) : List Reply :=
  ((s.req.pendingTable.find? (·.isSwap)).map fun e =>
    { tag := e.tag, kind := 0x0A, status := .done, stream := 0xFF, result := .swapped s.plans.staged.length cycle }).toList

/-- A record after a swap to a plan: its active slots recounted (R68 (3)). -/
def Opening.recounted (o : Opening) (p : Plan) (i : StreamId) : Opening := { o with activeSlots := p.count (.stream i) }

/-- A DRAINING stream that a swap to the staged plan leaves with no active slots (R68 (4)). -/
def State.losesSlots (s : State) (i : StreamId) : Bool := s.isDraining i && decide (s.plans.staged.count (.stream i) = 0)

/-- No stream is DRAINING. -/
def State.noDrains (s : State) : Prop := ∀ i, s.isDraining i = false

/-- The Cycle Engine after the stop (R85 (1)). The next slot's number is the model's own (log 9). -/
def CycleEngine.stopped (b : CycleEngine) : CycleEngine :=
  { b with state := .stopped, cycleTimer := none, inProgress := false, slotCount := none, slotInFlight := none,
           nextSlot := 0, busTx := none }

/-- `t` is `s` with the streams of a list closed one after the other, their drains ended, each by the effects of R12. -/
inductive State.drainsTo : List StreamId → State → State → Prop where
  | none (s : State) : State.drainsTo [] s s
  | next (s u t : State) (i : StreamId) (rest : List StreamId) (o : Opening) (opened : s.opening i = some o)
      (closes : s.closesTo i o true u) (drains : State.drainsTo rest u t) : State.drainsTo (i :: rest) s t

/-- The pending table less the first entry of each stream that `ends` holds of (R12 (7)). -/
def State.entriesLeft (s : State) (ends : StreamId → Bool) : List PendingEntry :=
  (allStreams.filter ends).foldl (fun es i => es.eraseP (·.isOf i)) s.req.pendingTable

/-- `t` is `s` with its pending swap applied (R66 to R68): the staged plan active and every open stream recounted; then the
drains it leaves with no active slots ended, in ascending order (R103); then the mark cleared, and the SWAP's entry
erased and answered. -/
def State.swapsTo (s : State) (cycle : Option Half) (t : State) : Prop :=
  ∃ u, State.drainsTo (allStreams.filter s.losesSlots)
      { s with
        plans := { s.plans with active := s.plans.staged, staged := [] }
        streams := PerStream.tabulate fun j =>
          { s.stream j with opening := (s.opening j).map (·.recounted s.plans.staged j) } } u ∧
    t = { u with
      plans := { u.plans with swapPending := false }
      req := { u.req with
        pendingTable := u.req.pendingTable.eraseP (·.isSwap), replyQueue := u.req.replyQueue ++ s.swapReplies cycle } }

/-- `t` is `s` after steps (1) to (3) of the stop event (R67, R85, R104): the bus STOPPED; a pending swap applied; then every
stream still DRAINING closed, in ascending order, by the effects of R12. The first clause gives `t` whole; the others say
what follows of it field by field, and that with no stream DRAINING nothing else changes. -/
def State.stopsTo (s t : State) : Prop :=
  (∃ u, (s.plans.swapPending = false → u = { s with bus := s.bus.stopped }) ∧
    (s.plans.swapPending = true → State.swapsTo { s with bus := s.bus.stopped } none u) ∧
    State.drainsTo (allStreams.filter u.isDraining) u t) ∧
  t.bus = s.bus.stopped ∧
  t.plans = (if s.plans.swapPending then { active := s.plans.staged, staged := [], swapPending := false } else s.plans) ∧
  (∀ i, t.opening i = if s.isDraining i then none
    else if s.plans.swapPending then (s.opening i).map (·.recounted s.plans.staged i) else s.opening i) ∧
  (∀ i, (t.stream i).generation = (s.stream i).generation ∧ (t.stream i).counters = (s.stream i).counters) ∧
  t.req.replyQueue = s.req.replyQueue ++
    (if s.plans.swapPending then s.drainReplies s.losesSlots ++ s.swapReplies none else []) ++
    s.drainReplies (fun i => s.isDraining i && !(s.plans.swapPending && s.losesSlots i)) ∧
  t.req.pendingTable =
    (if s.plans.swapPending then (s.entriesLeft s.isDraining).eraseP (·.isSwap) else s.entriesLeft s.isDraining) ∧
  (s.noDrains → t.ring = s.ring ∧ t.coll = s.coll ∧ t.req.notices = s.req.notices ∧ t.req.globals = s.req.globals) ∧
  t.link = s.link ∧ t.req.link = s.req.link ∧ t.req.handling = s.req.handling ∧
  t.clockRunning = s.clockRunning ∧ t.rstLow = s.rstLow ∧ t.pending = s.pending

/-! ## Slots -/

/-- The slot event of slot `k` is due with plan entry `e` (R74 (6), R75). -/
def State.slotDue (s : State) (k : Nat) (e : PlanEntry) : Prop :=
  s.inService ∧ s.bus.inProgress = true ∧ s.bus.slotInFlight = none ∧ s.bus.nextSlot = k ∧ s.plans.active[k]? = some e ∧
    ∃ n, s.bus.slotCount = some n ∧ k < n

/-- The Cycle Engine after it has sent a command frame in slot `k` (R75, R76). -/
def CycleEngine.sends (b : CycleEngine) (k : Nat) (kind : CommandKind) (target : Option (StreamId × Byte))
    (station channel : Nat) (value : Word) : CycleEngine :=
  { b with
    slotInFlight := some { index := k, kind := kind, target := target, station := station, channel := channel }
    nextSlot := k + 1
    busTx := some (.command kind station channel value)
    busTime := b.cycleTimer.getD 0 - b.period + 4 + 2 * k }

/-- The play position of an open stream is `p`, and ring entry `k` is the one due there (R23, R91). -/
def Opening.due (o : Opening) (p : Half) (k : Nat) : Prop :=
  o.playPos = some p ∧ o.ringEntry (p.toNat % o.ringSize) = some k

/-- The entry is fresh for the play position: held, and tagged with it (R91). -/
def Entry.freshFor (e : Entry) (p : Half) : Prop := e.held = true ∧ e.tag = p

/-- `q` is the store `r` with held no in the entries that `p` names, and everything else as it was (R24 (2), (3)). -/
def RingStore.clearsTo (r : RingStore) (p : Nat → Prop) (q : RingStore) : Prop :=
  (∀ k, p k → q.read k = { r.read k with held := false }) ∧ (∀ k, ¬ p k → q.read k = r.read k) ∧
    q.epoch = r.epoch ∧ q.freeBlocks = r.freeBlocks ∧ q.sweepQueue = r.sweepQueue ∧ q.engine = r.engine

/-- The Cycle Engine at the end of slot `k` (R77); the times are the model's own (log 9). -/
def CycleEngine.endsSlot (b : CycleEngine) (k : Nat) : CycleEngine :=
  { b with slotInFlight := none, busTx := none, busTime := b.cycleTimer.getD 0 - b.period + 4 + 2 * k + 2 }

/-- A notice cell raised by `n` if `due` (R142, R155). -/
def NoticeCell.raisedIf (c : NoticeCell) (due : Bool) (n : Nat) : NoticeCell :=
  if due then { flag := true, count := BitVec.ofNat 32 (min (c.count.toNat + n) 0xFFFFFFFF) } else c

/-- The value a HOLD substitutes (R93 (1)). -/
def Opening.holdValue (o : Opening) : Word := if o.policy = .repeatLast then o.lastPlayed else o.safeValue

/-! ## Samples -/

/-- What becomes of the sample with sequence number `t`, by the ring as the bundle finds it (R43, R45). -/
def State.classOf (s : State) (o : Opening) (pos t : Half) : SampleClass :=
  if seqDist t pos < 0 then .late
  else if (o.ringSize : Int) ≤ seqDist t pos then .ahead
  else if s.heldAt o (t.toNat % o.ringSize) then .duplicate
  else .placed

/-- The sequence number of the sample at place `k` of a bundle (R38). -/
def BundleRequest.seqAt (q : BundleRequest) (k : Nat) : Half := q.first + BitVec.ofNat 16 k

/-- How many samples of a bundle are of a class (R51 (2)). -/
def State.countOf (s : State) (o : Opening) (pos : Half) (q : BundleRequest) (x : SampleClass) : Nat :=
  ((List.range q.values.length).filter fun k => decide (s.classOf o pos (q.seqAt k) = x)).length

/-- A well-formed bundle in the head frame `f` that its stream classifies: the stream is PRIMING, PLAYING or STARVED and
its ring has its shape, with no block twice (R23, R26, R40). -/
def State.classifies (s : State) (f : Frame) (rest : List Frame) (q : BundleRequest) (o : Opening) : Prop :=
  s.canTake f rest ∧ kindOf f = 0x20 ∧ parseBundle f = some q ∧ s.opening q.stream = some o ∧
    o.phase ≠ .sweeping ∧ o.phase ≠ .draining ∧ o.shapeOk ∧ o.blockMap.Nodup

/-! ## Runs of bytes -/

/-- The state after a command that answers next, and the state itself otherwise. -/
def State.after (s : State) (c : Instr) : State :=
  match exec c s with
  | .next t => t
  | .fault _ => s
  | .refused _ => s

/-- The state after the bytes of a list have been taken one by one. -/
def State.feed (s : State) : List Byte → State
  | [] => s
  | b :: bs => State.feed (s.after (byteCommand s.link.rx b)) bs

end Sys2Proof.Machine
end

