-- ==== Sys2Proof/Certificates/Slice0/Obligations.lean ====
section
/-! DEFINITION. The statements for the provers. Every clause is over all states; where a clause is the model's choice and not a
rule of the spec, its docstring names the assumption log's entry. -/

open Sys2Proof Sys2Proof.Machine

/-! ## Steps and commands -/

/-- A step takes the command at the front of the queue and runs it on the state with the queue's rest. On an empty queue the
frame being driven on the cadence bus goes out, so that BDE is released, and nothing else changes; out of service nothing
changes at all (the model's choice, logs 2, 7 and 17). BDE is asserted exactly while a frame is driven by a bus that is not
STOPPED in a part whose RST is not low (R165). -/
def Obligations.StepRunsFrontCommand : Prop :=
  (∀ (s : State) (c : Instr) (q : List Instr), s.pending = c :: q → step s = exec c { s with pending := q }) ∧
  (∀ s : State, s.pending = [] → s.inService → step s = .next { s with bus := { s.bus with busTx := none } }) ∧
  (∀ s : State, s.pending = [] → ¬ s.inService → step s = .next s) ∧
  ∀ s : State, (s.bus.busTx = none ∨ s.bus.state = .stopped ∨ s.rstLow = true → s.bde = false) ∧
    (∀ frame, s.bus.busTx = some frame → s.bus.state ≠ .stopped → s.rstLow = false → s.bde = true)

/-- Every command answers a next state, in every state, and leaves the queue of waiting commands alone (log 1, log 2). -/
def Obligations.EveryCommandAnswersNext : Prop :=
  ∀ (c : Instr) (s : State), ∃ t, exec c s = .next t ∧ t.pending = s.pending

/-! ## Resets, pins and clock -/

/-- Power-on reset: every block at the values of R2, R37, R57, R71, R110, R141 and R142. With power applied while RST is
high the straps are read at once; with RST low the rate waits for the release, and a low pulse shorter than 1 µs does
nothing (R125, R165; log 6). The epoch, the bus times, the clock flag and the bit count of a run sent are the model's own
(logs 4, 9, 6, 16). -/
def Obligations.PowerOnResetSetsEveryBlock : Prop :=
  ∀ (s : State) (rate1 rate0 : Bool) (ns : Nat),
    let blank : State :=
      { streams := Vector.replicate 64 { generation := 0, counters := {}, opening := none }
        ring := { epoch := s.ring.epoch + 1, entries := [], freeBlocks := List.finRange 256, sweepQueue := [], engine := .idle }
        plans := { active := [], staged := [], swapPending := false }
        bus := { state := .stopped, period := 1000, cycleTimer := none, cycleNumber := 0, inProgress := false,
                 slotCount := none, slotInFlight := none, nextSlot := 0, firstCycle := false, busTime := 0, busTx := none }
        coll := { buffers := Vector.replicate 64 [], tallies := Vector.replicate 64 0, queue := [], stallList := [] }
        link := { rate := none, rx := .hunt, rxBuf := [], tx := .idle, runSent := 0, sinceReport := 0, lastNotice := 63
                  counters := {} }
        req := { replyQueue := [], pendingTable := [], notices := Vector.replicate 64 {}, link := { flag := false, count := 0 },
                 globals := {}, handling := none }
        clockRunning := s.clockRunning, rstLow := true, pending := s.pending }
    let strapped : LinkRate := if rate1 then (if rate0 then .r12 else .r6) else (if rate0 then .r3 else .r1)
    exec (.powerOnReset (.power true) rate1 rate0) s =
      .next { blank with link := { blank.link with rate := some strapped }, rstLow := false } ∧
    exec (.powerOnReset (.power false) rate1 rate0) s = .next blank ∧
    (1000 ≤ ns → exec (.powerOnReset (.rstLow ns) rate1 rate0) s = .next blank) ∧
    (ns < 1000 → exec (.powerOnReset (.rstLow ns) rate1 rate0) s = .next s)

/-- The release of RST reads the straps and leaves the Feed Link Port at its power-on values (R125, R141); where RST does not
hold the part in reset it changes nothing (log 6); the bit count of a run sent is the model's own (log 16). The clock input stops and returns; while it is stopped, and while RST
is low, no command but those of the pins changes anything (R141, R165; log 7). -/
def Obligations.ReleaseReadsStrapsAndStoppedPartRests : Prop :=
  (∀ (s : State) (rate1 rate0 : Bool), s.rstLow = true →
    exec (.rstRelease rate1 rate0) s = .next { s with
      rstLow := false
      link := { rate := some (if rate1 then (if rate0 then .r12 else .r6) else (if rate0 then .r3 else .r1))
                rx := .hunt, rxBuf := [], tx := .idle, runSent := 0, sinceReport := 0, lastNotice := 63, counters := {} } }) ∧
  (∀ (s : State) (rate1 rate0 : Bool), s.rstLow = false → exec (.rstRelease rate1 rate0) s = .next s) ∧
  (∀ s : State, exec .clockStops s = .next { s with clockRunning := false }) ∧
  (∀ s : State, exec .clockReturns s = .next { s with clockRunning := true }) ∧
  ∀ (s : State) (c : Instr), (s.clockRunning = false ∨ s.rstLow = true) →
    (∀ cause r1 r0, c ≠ .powerOnReset cause r1 r0) → (∀ r1 r0, c ≠ .rstRelease r1 r0) → c ≠ .clockStops → c ≠ .clockReturns →
    exec c s = .next s

/-- The machine right after reset: the values the spec gives, every counter and tally 0 and every notice clear with a count
of 0 among them (R110, R140 to R142), and every law of this file. The rate and the pin levels are the model's choice
(log 5). -/
def Obligations.ResetStateHoldsEveryLaw : Prop :=
  (∀ i, State.reset.stream i = { generation := 0, counters := {}, opening := none }) ∧
  State.reset.ring.freeBlocks = List.finRange 256 ∧ State.reset.ring.sweepQueue = [] ∧ State.reset.ring.engine = .idle ∧
  State.reset.plans = { active := [], staged := [], swapPending := false } ∧
  State.reset.bus.state = .stopped ∧ State.reset.bus.period = 1000 ∧ State.reset.bus.cycleTimer = none ∧
  State.reset.bus.cycleNumber = 0 ∧ State.reset.bus.inProgress = false ∧ State.reset.bus.slotCount = none ∧
  State.reset.bus.slotInFlight = none ∧ (∀ i, State.reset.coll.buffers.at i = [] ∧ State.reset.coll.tallies.at i = 0) ∧
  State.reset.coll.queue = [] ∧ State.reset.coll.stallList = [] ∧
  State.reset.link.rx = .hunt ∧ State.reset.link.rxBuf = [] ∧ State.reset.link.tx = .idle ∧
  State.reset.link.sinceReport = 0 ∧ State.reset.link.lastNotice = 63 ∧
  State.reset.link.counters = { huntBytes := 0, badLength := 0, badCheck := 0, timeouts := 0, overflow := 0
                                framesReceived := 0, framesSent := 0, badForm := 0 } ∧
  State.reset.req.replyQueue = [] ∧ State.reset.req.pendingTable = [] ∧
  (∀ i, State.reset.noticesOf i =
    { state := { flag := false, count := 0 }, discard := { flag := false, count := 0 }, silent := { flag := false, count := 0 } }) ∧
  State.reset.req.link = { flag := false, count := 0 } ∧
  State.reset.req.globals = { bundlesForClosed := 0, orphanReturns := 0, unsolicitedReturns := 0, collectLostAtClose := 0 } ∧
  State.reset.req.handling = none ∧
  State.reset.pending = [] ∧
  State.reset.ring.wf ∧ State.reset.repliesFit ∧ State.reset.queuesFit ∧ State.reset.pairsDistinct ∧
  State.reset.blocksOnce ∧ State.reset.missRunsOk ∧ State.reset.sweepsOk ∧ State.reset.plansOk ∧ State.reset.slotsCounted ∧
  State.reset.noticesOk ∧ State.reset.stallsOk ∧ State.reset.pendingOk ∧ State.reset.ringsShaped ∧ State.reset.contentsOk ∧
  State.reset.busOk ∧ State.reset.drainsOk

/-! ## The receive framer -/

/-- R127: in HUNT a byte B4H sets the running CRC to FFFFH and moves the framer to LENGTH with its timer running; any other
byte is counted and the framer stays. Inside a frame no byte is taken as a sync or hunt byte. -/
def Obligations.HuntTakesSyncAndCountsHuntBytes : Prop :=
  ∀ s : State, s.inService →
    (s.link.rx = .hunt →
      exec .syncByte s = .next { s with link := { s.link with rx := .length 0xFFFF#16 } } ∧
      (RxFramer.length 0xFFFF#16).timerRunning = true ∧
      ∀ b : Byte, b ≠ 0xB4#8 → exec (.huntByte b) s =
        .next { s with link := { s.link with counters := { s.link.counters with huntBytes := s.link.counters.huntBytes + 1 } } }) ∧
    byteCommand .hunt 0xB4#8 = .syncByte ∧ (∀ b : Byte, b ≠ 0xB4#8 → byteCommand .hunt b = .huntByte b) ∧
    ∀ (rx : RxFramer) (b : Byte), rx ≠ .hunt → byteCommand rx b ≠ .syncByte ∧ ∀ d, byteCommand rx b ≠ .huntByte d

/-- R128: a length 2..250 begins the body with no byte taken and the timer running; any other length abandons the frame,
is counted, and is a LINK fault. -/
def Obligations.LengthByteBeginsBodyOrAbandons : Prop :=
  ∀ (s : State) (b : Byte) (crc : Half), s.inService → s.link.rx = .length crc →
    (2 ≤ b.toNat → b.toNat ≤ 250 →
      exec (.lengthByte b) s = .next { s with link := { s.link with rx := .body b.toNat [] (crcByte crc b) } } ∧
      (RxFramer.body b.toNat [] (crcByte crc b)).timerRunning = true) ∧
    ((b.toNat < 2 ∨ 250 < b.toNat) →
      exec (.lengthByte b) s = .next (State.linkRaised { s with link := { s.link with
        rx := .hunt, counters := { s.link.counters with badLength := s.link.counters.badLength + 1 } } }) ∧
      RxFramer.hunt.timerRunning = false)

/-- R129, R131: each body byte is taken into the frame and the running CRC, the last one moves the framer to CHECK HIGH; the
check bytes are compared with the running CRC; a good frame joins the receive buffer or overflows, a bad one is
discarded, and the framer goes to HUNT. -/
def Obligations.BodyAndCheckBytesEndFrame : Prop :=
  ∀ (s : State) (b : Byte), s.inService →
    (∀ len taken crc, s.link.rx = .body len taken crc →
      exec (.bodyByte b) s = .next { s with link := { s.link with
        rx := if taken.length + 1 = len then .checkHigh (taken ++ [b]) (crcByte crc b)
              else .body len (taken ++ [b]) (crcByte crc b) } }) ∧
    (∀ taken crc, s.link.rx = .checkHigh taken crc →
      exec (.highCheckByte b) s = .next { s with link := { s.link with rx := .checkLow taken b crc } }) ∧
    (∀ taken high crc, s.link.rx = .checkLow taken high crc → high ++ b = crc → s.link.rxBuf.length < 8 →
      exec (.lowCheckByte b) s = .next { s with link := { s.link with
        rx := .hunt, rxBuf := s.link.rxBuf ++ [taken]
        counters := { s.link.counters with framesReceived := s.link.counters.framesReceived + 1 } } }) ∧
    (∀ taken high crc, s.link.rx = .checkLow taken high crc → high ++ b = crc → 8 ≤ s.link.rxBuf.length →
      exec (.lowCheckByte b) s = .next (State.linkRaised { s with link := { s.link with
        rx := .hunt, counters := { s.link.counters with overflow := s.link.counters.overflow + 1 } } })) ∧
    (∀ taken high crc, s.link.rx = .checkLow taken high crc → high ++ b ≠ crc →
      exec (.lowCheckByte b) s = .next (State.linkRaised { s with link := { s.link with
        rx := .hunt, counters := { s.link.counters with badCheck := s.link.counters.badCheck + 1 } } })) ∧
    ∀ taken high crc, (RxFramer.checkHigh taken crc).timerRunning = true ∧ (RxFramer.checkLow taken high crc).timerRunning = true

/-- The timer's expiry inside a frame abandons it, is counted, and is a LINK fault; in HUNT the timer does not run, and
nothing happens (the model's choice, log 1). The 500 µs are not measured (log 8). -/
def Obligations.TimeoutAbandonsFrame : Prop :=
  ∀ s : State, s.inService →
    (s.link.rx ≠ .hunt →
      exec .interByteTimeout s = .next (State.linkRaised { s with link := { s.link with
        rx := .hunt, counters := { s.link.counters with timeouts := s.link.counters.timeouts + 1 } } })) ∧
    (s.link.rx = .hunt → exec .interByteTimeout s = .next s)

/-- A frame sent byte by byte in the form of R126 is received: taken in HUNT, it puts exactly its body in the receive
buffer and counts one frame; with the buffer full it is an overflow; with a check that differs it is a bad check. -/
def Obligations.FramedBytesReachReceiveBuffer : Prop :=
  ∀ (s : State) (f : Frame), s.inService → s.link.rx = .hunt → 2 ≤ f.length → f.length ≤ 250 →
    (s.link.rxBuf.length < 8 → s.feed (frameBytes f) = { s with link := { s.link with
      rxBuf := s.link.rxBuf ++ [f]
      counters := { s.link.counters with framesReceived := s.link.counters.framesReceived + 1 } } }) ∧
    (8 ≤ s.link.rxBuf.length → s.feed (frameBytes f) = State.linkRaised { s with link := { s.link with
      counters := { s.link.counters with overflow := s.link.counters.overflow + 1 } } }) ∧
    ∀ h l : Byte, h ++ l ≠ crc16 (byteOf f.length :: f) →
      s.feed (0xB4#8 :: byteOf f.length :: (f ++ [h, l])) = State.linkRaised { s with link := { s.link with
        counters := { s.link.counters with badCheck := s.link.counters.badCheck + 1 } } }

/-! ## Taking frames -/

/-- The command that takes a frame follows its kind byte (R146, R159), for CLOSE its drain flag and for RESUME its presence
bit (log 3). That command removes the head frame and leaves nothing being handled; a head frame that needs a reply waits
while replies and pending entries are 16 or more (R143, R144); no other request command takes the frame (log 1). -/
def Obligations.HeadFrameTakenByItsKind : Prop :=
  (∀ f : Frame, (kindOf f = 0x01 → frameCommand f = .hello) ∧ (kindOf f = 0x02 → frameCommand f = .openStream) ∧
    (kindOf f = 0x03 → frameCommand f = if byteAt f 3 = 1 then .closeWithDrain else .closeAtOnce) ∧
    (kindOf f = 0x04 → frameCommand f =
      if (byteAt f 3).getLsbD 0 then .resumeWithStartSequence else .resumeWithoutSequence) ∧
    (kindOf f = 0x05 → frameCommand f = .tune) ∧ (kindOf f = 0x06 → frameCommand f = .query) ∧
    (kindOf f = 0x07 → frameCommand f = .counters) ∧ (kindOf f = 0x08 → frameCommand f = .flush) ∧
    (kindOf f = 0x09 → frameCommand f = .stage) ∧ (kindOf f = 0x0A → frameCommand f = .swap) ∧
    (kindOf f = 0x0B → frameCommand f = .start) ∧ (kindOf f = 0x0C → frameCommand f = .halt) ∧
    (kindOf f = 0x0D → frameCommand f = .period) ∧ (kindOf f = 0x0E → frameCommand f = .reset) ∧
    (kindOf f = 0x20 → frameCommand f = .bundle) ∧
    (kindOf f = 0 ∨ 0x0E < (kindOf f).toNat ∧ kindOf f ≠ 0x20 → frameCommand f = .unknownKind)) ∧
  (∀ f : Frame, needsReply f = true ↔ (1 ≤ (kindOf f).toNat ∧ (kindOf f).toNat ≤ 14) ∨ tagOf f ≠ 0) ∧
  (∀ (s : State) (f : Frame) (rest : List Frame), s.canTake f rest →
    ∃ t, exec (frameCommand f) s = .next t ∧ t.link.rxBuf = rest ∧ t.req.handling = none) ∧
  (∀ (s : State) (f : Frame) (rest : List Frame), s.link.rxBuf = f :: rest → needsReply f = true →
    16 ≤ s.req.replyQueue.length + s.req.pendingTable.length → exec (frameCommand f) s = .next s) ∧
  ∀ (s : State) (f g : Frame) (rest : List Frame), s.link.rxBuf = f :: rest → frameCommand g ≠ frameCommand f →
    exec (frameCommand g) s = .next s

/-- The bodies of OPEN, TUNE and BUNDLE are read exactly: a body is read as a request if and only if it is that request's
bytes in the layout of R160, no byte more or less, every field at every value its width admits. -/
def Obligations.BodiesAreReadExactly : Prop :=
  (∀ (f : Frame) (q : OpenRequest), parseOpen f = some q ↔ q.fits ∧ ∃ kind tag, f = kind :: tag :: q.bytes) ∧
  (∀ (f : Frame) (q : TuneRequest), parseTune f = some q ↔ q.carries ∧ ∃ kind tag, f = kind :: tag :: q.bytes) ∧
  ∀ (f : Frame) (q : BundleRequest), parseBundle f = some q ↔
    (1 ≤ q.values.length ∧ q.values.length ≤ 32) ∧ ∃ kind tag, f = kind :: tag :: q.bytes

/-! ## Requests about the part as a whole -/

/-- R150: a HELLO is answered DONE at once with the revision, the six capacities, the free block count and the bus state, and
changes nothing else; a body with anything more, or with tag 0, is answered BAD FORM. -/
def Obligations.HelloAnswered : Prop :=
  (∀ (s : State) (f : Frame) (rest : List Frame), s.canTake f rest → kindOf f = 0x01 →
    exec .hello s = .next ((s.without rest).queued
      (if tagOf f = 0 ∨ f.length ≠ 2 then ⟨tagOf f, 0x01, .badForm, 0xFF, .none⟩
       else ⟨tagOf f, 0x01, .done, 0xFF, .hello s.ring.freeBlocks.length s.bus.state⟩))) ∧
  ∀ n b, (ReplyResult.hello n b).bytes = [1, 64, 1, 0, 96, 8, 16, 12] ++ num16 n ++ [b.code]

/-- R151: a COUNTERS is answered DONE with the state, the generation and the 13 counters of a stream, or with the twelve global
counters, in the order of the rule; with the clear flag yes they are set to 0 after the snapshot, and nothing else
changes. A bad form or target is refused; that a target stands as the reply's stream byte is the model's reading (log 12). -/
def Obligations.CountersReadAndCleared : Prop :=
  (∀ (s : State) (f : Frame) (rest : List Frame), s.canTake f rest → kindOf f = 0x07 →
    (tagOf f = 0 ∨ f.length ≠ 4 ∨ 1 < (byteAt f 3).toNat →
      exec .counters s = .next ((s.without rest).queued ⟨tagOf f, 0x07, .badForm, 0xFF, .none⟩)) ∧
    (tagOf f ≠ 0 → f.length = 4 → (byteAt f 3).toNat ≤ 1 →
      (64 ≤ (byteAt f 2).toNat → byteAt f 2 ≠ 0xFF →
        exec .counters s = .next ((s.without rest).queued ⟨tagOf f, 0x07, .badValue, byteAt f 2, .none⟩)) ∧
      (∀ i : StreamId, (byteAt f 2).toNat = i.val →
        exec .counters s = .next (State.queued
          { s.without rest with streams := if byteAt f 3 = 1 then s.streams.put i { s.stream i with counters := {} } else s.streams }
          ⟨tagOf f, 0x07, .done, byteAt f 2,
            .streamCounters (s.stream i).state (s.stream i).generation (s.stream i).counters⟩)) ∧
      (byteAt f 2 = 0xFF →
        exec .counters s = .next (State.queued
          (if byteAt f 3 = 1 then
            { s with link := { s.link with rxBuf := rest, counters := {} }, req := { s.req with globals := {} } }
           else s.without rest)
          ⟨tagOf f, 0x07, .done, 0xFF, .globalCounters s.req.globals s.link.counters⟩)))) ∧
  (∀ c : StreamCounters, c.bytes = [c.placed, c.duplicate, c.late, c.ahead, c.refused, c.played, c.substituted, c.starveEvents,
    c.returnsGood, c.missing, c.corrupt, c.alien, c.collectDropped].flatMap bytes32) ∧
  ∀ (g : GlobalCounters) (l : LinkCounters), (ReplyResult.globalCounters g l).bytes =
    [g.bundlesForClosed, g.orphanReturns, g.unsolicitedReturns, g.collectLostAtClose, l.huntBytes, l.badLength, l.badCheck,
     l.timeouts, l.overflow, l.framesReceived, l.framesSent, l.badForm].flatMap bytes32

/-- A RESET empties the reply queue, cancels every pending entry oldest first, soft-resets every block (R2, R37, R70, R88,
R110, R141, R142) and queues its DONE; generations, ring entries, link rate, framers and the other frames stay. One of
bad form resets nothing. The bus's own times are the model's (log 9). -/
def Obligations.ResetCancelsAndClears : Prop :=
  ∀ (s : State) (f : Frame) (rest : List Frame), s.canTake f rest → kindOf f = 0x0E →
    (tagOf f = 0 ∨ f.length ≠ 2 →
      exec .reset s = .next ((s.without rest).queued ⟨tagOf f, 0x0E, .badForm, 0xFF, .none⟩)) ∧
    (tagOf f ≠ 0 → f.length = 2 →
      exec .reset s = .next
        { streams := PerStream.tabulate fun i => { generation := (s.stream i).generation, counters := {}, opening := none }
          ring := { epoch := s.ring.epoch, entries := s.ring.entries, freeBlocks := List.finRange 256, sweepQueue := [],
                    engine := .idle }
          plans := { active := [], staged := [], swapPending := false }
          bus := { state := .stopped, period := 1000, cycleTimer := none, cycleNumber := 0, inProgress := false,
                   slotCount := none, slotInFlight := none, nextSlot := 0, firstCycle := false, busTime := 0, busTx := none }
          coll := { buffers := Vector.replicate 64 [], tallies := Vector.replicate 64 0, queue := [], stallList := [] }
          link := { s.link with rxBuf := rest, sinceReport := 0, lastNotice := 63, counters := {} }
          req := { replyQueue := (s.req.pendingTable.map fun e =>
                     ⟨e.tag, e.job.kind, .cancelled, (match e.job.stream with | none => 0xFF | some i => byteOf i.val), .none⟩) ++
                     [⟨tagOf f, 0x0E, .done, 0xFF, .none⟩]
                   pendingTable := [], notices := Vector.replicate 64 {}, link := { flag := false, count := 0 }
                   globals := {}, handling := none }
          clockRunning := s.clockRunning, rstLow := s.rstLow, pending := s.pending })

/-- A frame of a kind the part does not take is answered UNKNOWN KIND with its kind and tag, or with tag 0 counted as bad form;
it acts on nothing (R146 (4), (5), R158 (2)). -/
def Obligations.UnknownKindAnsweredOrCounted : Prop :=
  ∀ (s : State) (f : Frame) (rest : List Frame), s.canTake f rest → (kindOf f = 0 ∨ 0x0E < (kindOf f).toNat) → kindOf f ≠ 0x20 →
    (tagOf f ≠ 0 → exec .unknownKind s = .next ((s.without rest).queued ⟨tagOf f, kindOf f, .unknownKind, 0xFF, .none⟩)) ∧
    (tagOf f = 0 → exec .unknownKind s = .next { s with link := { s.link with
      rxBuf := rest, counters := { s.link.counters with badForm := s.link.counters.badForm + 1 } } })

/-! ## Opening and closing streams -/

/-- R6: the first check of an OPEN that fails decides the reply (form, ranges, IN USE for the stream, IN USE for its pair, TABLE
FULL, NO SPACE), and nothing else changes. What is well formed is stated by BodiesAreReadExactly. -/
def Obligations.OpenRefusedByFirstFailingCheck : Prop :=
  ∀ (s : State) (f : Frame) (rest : List Frame), s.canTake f rest → kindOf f = 0x02 →
    (tagOf f = 0 ∨ parseOpen f = none →
      exec .openStream s = .next ((s.without rest).queued ⟨tagOf f, 0x02, .badForm, 0xFF, .none⟩)) ∧
    ∀ q, tagOf f ≠ 0 → parseOpen f = some q →
      (¬ q.rangesGood →
        exec .openStream s = .next ((s.without rest).queued ⟨tagOf f, 0x02, .badValue, q.stream, .none⟩)) ∧
      (q.rangesGood → ∀ i : StreamId, q.stream.toNat = i.val →
        (s.opening i ≠ none →
          exec .openStream s = .next ((s.without rest).queued ⟨tagOf f, 0x02, .inUse, q.stream, .none⟩)) ∧
        (s.opening i = none → s.pairTaken q →
          exec .openStream s = .next ((s.without rest).queued ⟨tagOf f, 0x02, .inUse, q.stream, .none⟩)) ∧
        (s.opening i = none → ¬ s.pairTaken q → 8 ≤ s.req.pendingTable.length →
          exec .openStream s = .next ((s.without rest).queued ⟨tagOf f, 0x02, .tableFull, q.stream, .none⟩)) ∧
        (s.opening i = none → ¬ s.pairTaken q → s.req.pendingTable.length < 8 →
          s.ring.freeBlocks.length < q.ringSize / 32 →
          exec .openStream s = .next ((s.without rest).queued ⟨tagOf f, 0x02, .noSpace, q.stream, .none⟩)))

/-- R7: the acceptance of an OPEN, whole: the next generation, the request's fields, the blocks at the head of the free list,
the start sequence or adopting (an absent play position), the zeros, the active slots, SWEEPING with the sweep joined,
and the pending entry. Nothing else changes but the drop tally, which becomes 0 (R110). -/
def Obligations.OpenAcceptedInOneClaim : Prop :=
  ∀ (s : State) (f : Frame) (rest : List Frame) (q : OpenRequest) (i : StreamId), s.canTake f rest → kindOf f = 0x02 →
    tagOf f ≠ 0 → parseOpen f = some q → q.rangesGood → q.stream.toNat = i.val → s.opening i = none → ¬ s.pairTaken q →
    s.req.pendingTable.length < 8 → q.ringSize / 32 ≤ s.ring.freeBlocks.length →
    exec .openStream s = .next { s with
      streams := s.streams.put i
        { generation := (s.stream i).generation + 1
          counters := {}
          opening := some
            { phase := .sweeping, station := q.station, channel := q.channel, ringSize := q.ringSize
              blockMap := s.ring.freeBlocks.take (q.ringSize / 32)
              playPos := q.start, freshCount := 0, missRun := 0, primeDepth := q.primeDepth, starveLimit := q.starveLimit
              policy := q.policy, safeValue := q.safeValue, lastPlayed := q.safeValue
              collectBatch := (match q.batch with | none => 0 | some b => b.toNat)
              mask := (match q.mask with | none => { state := true, discard := true, silent := true } | some m => m)
              activeSlots := s.plans.active.count (.stream i), silentRun := 0 } }
      ring := { s.ring with
        freeBlocks := s.ring.freeBlocks.drop (q.ringSize / 32)
        sweepQueue := if s.ring.engine = .idle then s.ring.sweepQueue else s.ring.sweepQueue ++ [i]
        engine := if s.ring.engine = .idle then .busy i 0 else s.ring.engine }
      coll := { s.coll with tallies := s.coll.tallies.put i 0 }
      link := { s.link with rxBuf := rest }
      req := { s.req with pendingTable := s.req.pendingTable ++ [⟨tagOf f, .openOf i⟩] } }

/-- R9, R10, R12: a CLOSE at once is refused for its form, its stream number or a CLOSED stream, changing nothing; else it
closes the stream with the effects of R12, its pending entry answered CANCELLED ahead of the CLOSE's own DONE. -/
def Obligations.CloseAtOnceClosesStream : Prop :=
  ∀ (s : State) (f : Frame) (rest : List Frame), s.canTake f rest → kindOf f = 0x03 →
    (frameCommand f = .closeAtOnce → tagOf f = 0 ∨ f.length ≠ 4 ∨ byteAt f 3 ≠ 0 →
      exec .closeAtOnce s = .next ((s.without rest).queued ⟨tagOf f, 0x03, .badForm, 0xFF, .none⟩)) ∧
    (tagOf f ≠ 0 → f.length = 4 → byteAt f 3 = 0 →
      (64 ≤ (byteAt f 2).toNat →
        exec .closeAtOnce s = .next ((s.without rest).queued ⟨tagOf f, 0x03, .badValue, byteAt f 2, .none⟩)) ∧
      ∀ i : StreamId, (byteAt f 2).toNat = i.val →
        (s.opening i = none →
          exec .closeAtOnce s = .next ((s.without rest).queued ⟨tagOf f, 0x03, .noStream, byteAt f 2, .none⟩)) ∧
        ∀ o, s.opening i = some o → ∃ t, (s.without rest).closesTo i o false t ∧
          exec .closeAtOnce s = .next (t.queued ⟨tagOf f, 0x03, .done, byteAt f 2, .none⟩))

/-- R9, R10, R11: a CLOSE with drain is refused like a CLOSE at once; it closes at once a stream that is SWEEPING, PRIMING or
STARVED, or PLAYING with no active slots or on a STOPPED bus; it is refused BUSY while the stream is DRAINING and TABLE
FULL with 8 entries pending; else the stream becomes DRAINING with a pending entry and nothing else changes. -/
def Obligations.CloseWithDrainDrainsPlayingStream : Prop :=
  ∀ (s : State) (f : Frame) (rest : List Frame), s.canTake f rest → kindOf f = 0x03 → byteAt f 3 = 1 →
    (tagOf f = 0 ∨ f.length ≠ 4 →
      exec .closeWithDrain s = .next ((s.without rest).queued ⟨tagOf f, 0x03, .badForm, 0xFF, .none⟩)) ∧
    (tagOf f ≠ 0 → f.length = 4 →
      (64 ≤ (byteAt f 2).toNat →
        exec .closeWithDrain s = .next ((s.without rest).queued ⟨tagOf f, 0x03, .badValue, byteAt f 2, .none⟩)) ∧
      ∀ i : StreamId, (byteAt f 2).toNat = i.val →
        (s.opening i = none →
          exec .closeWithDrain s = .next ((s.without rest).queued ⟨tagOf f, 0x03, .noStream, byteAt f 2, .none⟩)) ∧
        ∀ o, s.opening i = some o →
          (o.phase = .sweeping ∨ o.phase = .priming ∨ o.phase = .starved ∨
              (o.phase = .playing ∧ (o.activeSlots = 0 ∨ s.bus.state = .stopped)) →
            ∃ t, (s.without rest).closesTo i o false t ∧
              exec .closeWithDrain s = .next (t.queued ⟨tagOf f, 0x03, .done, byteAt f 2, .none⟩)) ∧
          (o.phase = .draining →
            exec .closeWithDrain s = .next ((s.without rest).queued ⟨tagOf f, 0x03, .busy, byteAt f 2, .none⟩)) ∧
          (o.phase = .playing → o.activeSlots ≠ 0 → s.bus.state ≠ .stopped →
            (8 ≤ s.req.pendingTable.length →
              exec .closeWithDrain s = .next ((s.without rest).queued ⟨tagOf f, 0x03, .tableFull, byteAt f 2, .none⟩)) ∧
            (s.req.pendingTable.length < 8 →
              exec .closeWithDrain s = .next (State.entered
                { s.without rest with streams := s.streams.put i { s.stream i with opening := some { o with phase := .draining } } }
                ⟨tagOf f, .closeOf i⟩))))

/-- A RESUME without a start sequence: refused for its form, its stream number, a CLOSED stream, or a stream that is not STARVED
(with the stream's state); else the miss run is 0 and the stream is PLAYING if its fresh count is at least its prime
depth, else PRIMING, with a DONE that carries the state and, by the layout of R161, the generation (log 11). Nothing
else changes, no notice among it (R97, R98). -/
def Obligations.ResumeWithoutSequenceRestartsStarvedStream : Prop :=
  ∀ (s : State) (f : Frame) (rest : List Frame), s.canTake f rest → kindOf f = 0x04 →
    (frameCommand f = .resumeWithoutSequence → tagOf f = 0 ∨ f.length ≠ 4 ∨ byteAt f 3 ≠ 0 →
      exec .resumeWithoutSequence s = .next ((s.without rest).queued ⟨tagOf f, 0x04, .badForm, 0xFF, .none⟩)) ∧
    (tagOf f ≠ 0 → f.length = 4 → byteAt f 3 = 0 →
      (64 ≤ (byteAt f 2).toNat →
        exec .resumeWithoutSequence s = .next ((s.without rest).queued ⟨tagOf f, 0x04, .badValue, byteAt f 2, .none⟩)) ∧
      ∀ i : StreamId, (byteAt f 2).toNat = i.val →
        (s.opening i = none →
          exec .resumeWithoutSequence s = .next ((s.without rest).queued ⟨tagOf f, 0x04, .noStream, byteAt f 2, .none⟩)) ∧
        ∀ o, s.opening i = some o →
          (o.phase ≠ .starved → exec .resumeWithoutSequence s =
            .next ((s.without rest).queued ⟨tagOf f, 0x04, .wrongState, byteAt f 2, .state o.phase.state⟩)) ∧
          (o.phase = .starved →
            let next : Phase := if o.primeDepth ≤ o.freshCount then .playing else .priming
            exec .resumeWithoutSequence s = .next (State.queued
              { s.without rest with
                streams := s.streams.put i { s.stream i with opening := some { o with missRun := 0, phase := next } } }
              ⟨tagOf f, 0x04, .done, byteAt f 2, .stateGeneration next.state (s.stream i).generation⟩)))

/-- R97, R99: a RESUME with a start sequence is refused for its form, its stream number, a CLOSED stream, a SWEEPING or DRAINING
one (with its state), or 8 pending entries; else the play position takes the sequence, fresh count and miss run are 0,
the stream is SWEEPING in the sweep queue or under the idle engine, and a pending entry is made. Nothing else changes. -/
def Obligations.ResumeWithStartSequenceSweepsAgain : Prop :=
  ∀ (s : State) (f : Frame) (rest : List Frame), s.canTake f rest → kindOf f = 0x04 →
    (frameCommand f = .resumeWithStartSequence → tagOf f = 0 ∨ f.length ≠ 6 ∨ byteAt f 3 ≠ 1 →
      exec .resumeWithStartSequence s = .next ((s.without rest).queued ⟨tagOf f, 0x04, .badForm, 0xFF, .none⟩)) ∧
    (tagOf f ≠ 0 → f.length = 6 → byteAt f 3 = 1 →
      (64 ≤ (byteAt f 2).toNat →
        exec .resumeWithStartSequence s = .next ((s.without rest).queued ⟨tagOf f, 0x04, .badValue, byteAt f 2, .none⟩)) ∧
      ∀ i : StreamId, (byteAt f 2).toNat = i.val →
        (s.opening i = none →
          exec .resumeWithStartSequence s = .next ((s.without rest).queued ⟨tagOf f, 0x04, .noStream, byteAt f 2, .none⟩)) ∧
        ∀ o, s.opening i = some o →
          (o.phase = .sweeping ∨ o.phase = .draining → exec .resumeWithStartSequence s =
            .next ((s.without rest).queued ⟨tagOf f, 0x04, .wrongState, byteAt f 2, .state o.phase.state⟩)) ∧
          (o.phase ≠ .sweeping → o.phase ≠ .draining → 8 ≤ s.req.pendingTable.length → exec .resumeWithStartSequence s =
            .next ((s.without rest).queued ⟨tagOf f, 0x04, .tableFull, byteAt f 2, .none⟩)) ∧
          (o.phase ≠ .sweeping → o.phase ≠ .draining → s.req.pendingTable.length < 8 →
            exec .resumeWithStartSequence s = .next (State.entered
              { s.without rest with
                streams := s.streams.put i { s.stream i with
                  opening := some { o with
                    playPos := some (byteAt f 4 ++ byteAt f 5), freshCount := 0, missRun := 0, phase := .sweeping } }
                ring := { s.ring with
                  sweepQueue := if s.ring.engine = .idle then s.ring.sweepQueue else s.ring.sweepQueue ++ [i]
                  engine := if s.ring.engine = .idle then .busy i 0 else s.ring.engine } }
              ⟨tagOf f, .resumeOf i⟩)))

/-! ## Tuning and reading streams -/

/-- A TUNE refused at a check of R14 changes nothing; one that passes writes its fields together and makes the two comparisons of
R16 in order, and its DONE carries the state it leaves. Ring, plans, bus, generation, the other counters and every other
stream are left alone. -/
def Obligations.TuneWritesFieldsAndCompares : Prop :=
  (∀ (s : State) (f : Frame) (rest : List Frame), s.canTake f rest → kindOf f = 0x05 →
    (tagOf f = 0 ∨ parseTune f = none →
      exec .tune s = .next ((s.without rest).queued ⟨tagOf f, 0x05, .badForm, 0xFF, .none⟩)) ∧
    ∀ q, tagOf f ≠ 0 → parseTune f = some q →
      (64 ≤ q.stream.toNat → exec .tune s = .next ((s.without rest).queued ⟨tagOf f, 0x05, .badValue, q.stream, .none⟩)) ∧
      ∀ i : StreamId, q.stream.toNat = i.val →
        (s.opening i = none → exec .tune s = .next ((s.without rest).queued ⟨tagOf f, 0x05, .noStream, q.stream, .none⟩)) ∧
        ∀ o, s.opening i = some o →
          (o.phase = .sweeping ∨ o.phase = .draining →
            exec .tune s = .next ((s.without rest).queued ⟨tagOf f, 0x05, .wrongState, q.stream, .none⟩)) ∧
          (o.phase ≠ .sweeping → o.phase ≠ .draining → ¬ q.rangesGood o.ringSize →
            exec .tune s = .next ((s.without rest).queued ⟨tagOf f, 0x05, .badValue, q.stream, .none⟩))) ∧
  ∀ (s : State) (f : Frame) (rest : List Frame) (q : TuneRequest) (i : StreamId) (o : Opening), s.tunes f rest q i o →
    let prime := match q.primeDepth with | none => o.primeDepth | some p => p.toNat
    let limit := match q.starveLimit with | none => o.starveLimit | some l => l.toNat
    let first : Phase := if o.phase = .priming ∧ prime ≤ o.freshCount then .playing else o.phase
    let last : Phase := if first = .playing ∧ limit ≤ o.missRun then .starved else first
    ∃ t, exec .tune s = .next t ∧
      t.opening i = some { o with
        primeDepth := prime, starveLimit := limit
        policy := (match q.policy with | none => o.policy | some p => p)
        safeValue := (match q.safeValue with | none => o.safeValue | some v => v)
        collectBatch := (match q.batch with | none => o.collectBatch | some b => b.toNat)
        mask := (match q.mask with | none => o.mask | some m => m)
        phase := last } ∧
      (t.stream i).generation = (s.stream i).generation ∧
      (t.stream i).counters = { (s.stream i).counters with
        starveEvents := (s.stream i).counters.starveEvents + (if first = .playing ∧ limit ≤ o.missRun then 1 else 0)
        collectDropped := (t.stream i).counters.collectDropped } ∧
      (∀ j, j ≠ i → t.stream j = s.stream j) ∧
      t.req.replyQueue = s.req.replyQueue ++ [⟨tagOf f, 0x05, .done, q.stream, .state last.state⟩] ∧
      t.req.pendingTable = s.req.pendingTable ∧ t.req.globals = s.req.globals ∧ t.req.link = s.req.link ∧
      t.req.handling = none ∧ t.link = { s.link with rxBuf := rest } ∧ t.ring = s.ring ∧ t.plans = s.plans ∧ t.bus = s.bus ∧
      t.clockRunning = s.clockRunning ∧ t.rstLow = s.rstLow ∧ t.pending = s.pending

/-- R17: a TUNE that changes the notice mask clears each kind it removes, begins each kind it adds clear, and keeps a kind in
both masks; a STATE notice of the same TUNE is raised after the new mask is in force. No other stream's notices change. -/
def Obligations.TuneMaskActsOnPendingNotices : Prop :=
  ∀ (s : State) (f : Frame) (rest : List Frame) (q : TuneRequest) (i : StreamId) (o : Opening), s.tunes f rest q i o →
    let mask : NoticeMask := match q.mask with | none => o.mask | some m => m
    let prime := match q.primeDepth with | none => o.primeDepth | some p => p.toNat
    let limit := match q.starveLimit with | none => o.starveLimit | some l => l.toNat
    let plays : Prop := o.phase = .priming ∧ prime ≤ o.freshCount
    let starves : Prop := (o.phase = .playing ∨ plays) ∧ limit ≤ o.missRun
    let kept (old new : Bool) (c : NoticeCell) : NoticeCell := if old = true ∧ new = true then c else { flag := false, count := 0 }
    let raised (due : Prop) [Decidable due] (c : NoticeCell) : NoticeCell :=
      if due ∧ mask.state = true then { flag := true, count := if c.count = 0xFFFFFFFF#32 then c.count else c.count + 1 } else c
    ∃ t, exec .tune s = .next t ∧
      t.noticesOf i =
        { state := raised starves (raised plays (kept o.mask.state mask.state (s.noticesOf i).state))
          discard := kept o.mask.discard mask.discard (s.noticesOf i).discard
          silent := kept o.mask.silent mask.silent (s.noticesOf i).silent } ∧
      ∀ j, j ≠ i → t.noticesOf j = s.noticesOf j

/-- R119, R120, R121: what a TUNE of the collect batch does to the stream's buffer, its drop tally, the stall list, the report
queue and the collect dropped counter, by the new batch, the old one and the buffer's count. -/
def Obligations.TuneBatchActsOnCollection : Prop :=
  ∀ (s : State) (f : Frame) (rest : List Frame) (q : TuneRequest) (i : StreamId) (o : Opening), s.tunes f rest q i o →
    let old := o.collectBatch
    let new := match q.batch with | none => old | some b => b.toNat
    let records := s.coll.buffers.at i
    let report (final : Bool) : Report :=
      { stream := i, generation := (s.stream i).generation, final := final, dropped := s.coll.tallies.at i, records := records }
    ∃ t, exec .tune s = .next t ∧
      (new = old → t.coll = s.coll ∧ t.counters i = { t.counters i with collectDropped := (s.counters i).collectDropped }) ∧
      (old < new → records.length < new → t.coll = { s.coll with stallList := s.coll.stallList.erase i }) ∧
      (old < new → new ≤ records.length → t.coll = s.coll) ∧
      (0 < new → new < old → i ∈ s.coll.stallList ∨ records.length < new → t.coll = s.coll) ∧
      (0 < new → new < old → i ∉ s.coll.stallList → new ≤ records.length → s.coll.queue.length < 12 →
        t.coll = { s.coll with
          buffers := s.coll.buffers.put i [], tallies := s.coll.tallies.put i 0, queue := s.coll.queue ++ [report false] }) ∧
      (0 < new → new < old → i ∉ s.coll.stallList → new ≤ records.length → 12 ≤ s.coll.queue.length →
        t.coll = { s.coll with stallList := s.coll.stallList ++ [i] }) ∧
      (new = 0 → old ≠ 0 → records = [] → t.coll = { s.coll with stallList := s.coll.stallList.erase i }) ∧
      (new = 0 → old ≠ 0 → records ≠ [] → s.coll.queue.length < 12 →
        t.coll = { buffers := s.coll.buffers.put i [], tallies := s.coll.tallies.put i 0
                   queue := s.coll.queue ++ [report true], stallList := s.coll.stallList.erase i }) ∧
      (new = 0 → old ≠ 0 → records ≠ [] → 12 ≤ s.coll.queue.length →
        t.coll = { s.coll with
          buffers := s.coll.buffers.put i []
          tallies := s.coll.tallies.put i (min (s.coll.tallies.at i + records.length) 65535)
          stallList := s.coll.stallList.erase i } ∧
        (t.counters i).collectDropped = (s.counters i).collectDropped + BitVec.ofNat 32 records.length) ∧
      (¬ (new = 0 ∧ old ≠ 0 ∧ records ≠ [] ∧ 12 ≤ s.coll.queue.length) →
        (t.counters i).collectDropped = (s.counters i).collectDropped)

/-- R18: a QUERY with a good stream number is answered DONE in any state with a snapshot, and changes nothing: state and
generation of a CLOSED stream; every field of an open one, adopting as an absent play position, with the count of its
collect buffer and its place in the stall list. Another stream number or a bad form is refused. The bytes of both
snapshots are those of R162. -/
def Obligations.QueryAnswersSnapshot : Prop :=
  (∀ (s : State) (f : Frame) (rest : List Frame), s.canTake f rest → kindOf f = 0x06 →
    (tagOf f = 0 ∨ f.length ≠ 3 →
      exec .query s = .next ((s.without rest).queued ⟨tagOf f, 0x06, .badForm, 0xFF, .none⟩)) ∧
    (tagOf f ≠ 0 → f.length = 3 →
      (64 ≤ (byteAt f 2).toNat →
        exec .query s = .next ((s.without rest).queued ⟨tagOf f, 0x06, .badValue, byteAt f 2, .none⟩)) ∧
      ∀ i : StreamId, (byteAt f 2).toNat = i.val →
        exec .query s = .next ((s.without rest).queued ⟨tagOf f, 0x06, .done, byteAt f 2,
          match s.opening i with
          | none => .closedSnapshot (s.stream i).generation
          | some o => .openSnapshot (s.stream i).generation
              { opening := o, buffered := (s.coll.buffers.at i).length, stalled := decide (i ∈ s.coll.stallList) }⟩))) ∧
  (∀ o : Opening, o.adopting = true ↔ o.playPos = none) ∧
  (∀ g : Byte, (ReplyResult.closedSnapshot g).bytes = [0, g]) ∧
  ∀ (g : Byte) (o : Opening) (buffered : Nat) (stalled : Bool),
    (ReplyResult.openSnapshot g { opening := o, buffered := buffered, stalled := stalled }).bytes =
      [o.phase.state.code, g, byteOf o.station, byteOf o.channel] ++ num16 o.ringSize ++
      [byteOf o.blockMap.length] ++ o.blockMap.map (fun b => byteOf b.val) ++
      (match o.playPos with | none => [1] | some p => [0] ++ bytes16 p) ++
      num16 o.freshCount ++ [byteOf o.missRun] ++ num16 o.primeDepth ++
      [byteOf o.starveLimit, (match o.policy with | .repeatLast => 0 | .safe => 1)] ++ bytes32 o.safeValue ++ bytes32 o.lastPlayed ++
      [byteOf o.collectBatch,
       (if o.mask.state then 1 else 0) + (if o.mask.discard then 2 else 0) + (if o.mask.silent then 4 else 0),
       byteOf o.activeSlots, byteOf o.silentRun, byteOf buffered, if stalled then 1 else 0]

/-- R118: the seven cases of a FLUSH in order; only the last changes anything beside the reply: a report of the whole buffer,
final flag no, joins the report queue, and the buffer and the drop tally are cleared. -/
def Obligations.FlushReportsBuffer : Prop :=
  ∀ (s : State) (f : Frame) (rest : List Frame), s.canTake f rest → kindOf f = 0x08 →
    (tagOf f = 0 ∨ f.length ≠ 3 →
      exec .flush s = .next ((s.without rest).queued ⟨tagOf f, 0x08, .badForm, 0xFF, .none⟩)) ∧
    (tagOf f ≠ 0 → f.length = 3 →
      (64 ≤ (byteAt f 2).toNat →
        exec .flush s = .next ((s.without rest).queued ⟨tagOf f, 0x08, .badValue, byteAt f 2, .none⟩)) ∧
      ∀ i : StreamId, (byteAt f 2).toNat = i.val →
        (s.opening i = none →
          exec .flush s = .next ((s.without rest).queued ⟨tagOf f, 0x08, .noStream, byteAt f 2, .none⟩)) ∧
        ∀ o, s.opening i = some o →
          (o.collectBatch = 0 →
            exec .flush s = .next ((s.without rest).queued ⟨tagOf f, 0x08, .wrongState, byteAt f 2, .none⟩)) ∧
          (o.collectBatch ≠ 0 → s.coll.buffers.at i = [] →
            exec .flush s = .next ((s.without rest).queued ⟨tagOf f, 0x08, .done, byteAt f 2, .recordCount 0⟩)) ∧
          (o.collectBatch ≠ 0 → s.coll.buffers.at i ≠ [] → 12 ≤ s.coll.queue.length →
            exec .flush s = .next ((s.without rest).queued ⟨tagOf f, 0x08, .busy, byteAt f 2, .none⟩)) ∧
          (o.collectBatch ≠ 0 → s.coll.buffers.at i ≠ [] → s.coll.queue.length < 12 →
            exec .flush s = .next (State.queued
              { s.without rest with coll := { s.coll with
                  buffers := s.coll.buffers.put i [], tallies := s.coll.tallies.put i 0
                  queue := s.coll.queue ++
                    [{ stream := i, generation := (s.stream i).generation, final := false
                       dropped := s.coll.tallies.at i, records := s.coll.buffers.at i }] } }
              ⟨tagOf f, 0x08, .done, byteAt f 2, .recordCount (s.coll.buffers.at i).length⟩)))

/-! ## Plans and the bus -/

/-- R61, R62: the checks of a STAGE in order, each refusal leaving the plans as they were; an accepted STAGE writes the staged
plan whole and is answered DONE with its slot count, and nothing else changes. -/
def Obligations.StageWritesStagedPlan : Prop :=
  ∀ (s : State) (f : Frame) (rest : List Frame), s.canTake f rest → kindOf f = 0x09 →
    let n := (byteAt f 2).toNat
    let entries := f.drop 3
    let bad : Prop := n = 0 ∨ 96 < n ∨ (∃ b ∈ entries, 64 ≤ b.toNat ∧ b ≠ 0xFF) ∨
      (∃ i : StreamId, 8 < entries.count (byteOf i.val)) ∨ s.bus.period < 4 + 2 * n + 8
    (tagOf f = 0 ∨ f.length ≠ 3 + n →
      exec .stage s = .next ((s.without rest).queued ⟨tagOf f, 0x09, .badForm, 0xFF, .none⟩)) ∧
    (tagOf f ≠ 0 → f.length = 3 + n → s.plans.swapPending = true →
      exec .stage s = .next ((s.without rest).queued ⟨tagOf f, 0x09, .busy, 0xFF, .none⟩)) ∧
    (tagOf f ≠ 0 → f.length = 3 + n → s.plans.swapPending = false → bad →
      exec .stage s = .next ((s.without rest).queued ⟨tagOf f, 0x09, .badValue, 0xFF, .none⟩)) ∧
    (tagOf f ≠ 0 → f.length = 3 + n → s.plans.swapPending = false → ¬ bad →
      exec .stage s = .next (State.queued
        { s.without rest with plans := { s.plans with
            staged := entries.map fun b => if b = 0xFF then .idle else .stream (Fin.ofNat 64 b.toNat) } }
        ⟨tagOf f, 0x09, .done, 0xFF, .slotCount n⟩))

/-- R63, R64, R65, R68: the checks of a SWAP in order; on a running bus it is deferred with the mark and a pending entry and
nothing else changes; on a STOPPED one, where no stream is DRAINING, the staged plan becomes active at once, every open
stream's active slots are recounted, and the DONE carries the slot count and no cycle number. -/
def Obligations.SwapAppliedOrDeferred : Prop :=
  ∀ (s : State) (f : Frame) (rest : List Frame), s.canTake f rest → kindOf f = 0x0A →
    (tagOf f = 0 ∨ f.length ≠ 2 →
      exec .swap s = .next ((s.without rest).queued ⟨tagOf f, 0x0A, .badForm, 0xFF, .none⟩)) ∧
    (tagOf f ≠ 0 → f.length = 2 →
      (s.plans.swapPending = true →
        exec .swap s = .next ((s.without rest).queued ⟨tagOf f, 0x0A, .busy, 0xFF, .none⟩)) ∧
      (s.plans.swapPending = false → s.plans.staged = [] →
        exec .swap s = .next ((s.without rest).queued ⟨tagOf f, 0x0A, .wrongState, 0xFF, .none⟩)) ∧
      (s.plans.swapPending = false → s.plans.staged ≠ [] →
        (s.bus.state ≠ .stopped → 8 ≤ s.req.pendingTable.length →
          exec .swap s = .next ((s.without rest).queued ⟨tagOf f, 0x0A, .tableFull, 0xFF, .none⟩)) ∧
        (s.bus.state ≠ .stopped → s.req.pendingTable.length < 8 →
          exec .swap s = .next (State.entered
            { s.without rest with plans := { s.plans with swapPending := true } } ⟨tagOf f, .swap⟩)) ∧
        (s.bus.state = .stopped → s.noDrains →
          exec .swap s = .next (State.queued
            { s.without rest with
              plans := { active := s.plans.staged, staged := [], swapPending := false }
              streams := PerStream.tabulate fun j =>
                { s.stream j with opening := (s.opening j).map (·.recounted s.plans.staged j) } }
            ⟨tagOf f, 0x0A, .done, 0xFF, .swapped s.plans.staged.length none⟩))))

/-- The cases of a START in order (R72): an accepted one makes the bus RUNNING with cycle number 0 and the cycle timer 20 µs
after it, and its DONE carries RUNNING and the period. Times counted from the START, and the mark of the first cycle,
are the model's (log 9). -/
def Obligations.StartRunsBus : Prop :=
  ∀ (s : State) (f : Frame) (rest : List Frame), s.canTake f rest → kindOf f = 0x0B →
    (tagOf f = 0 ∨ f.length ≠ 2 →
      exec .start s = .next ((s.without rest).queued ⟨tagOf f, 0x0B, .badForm, 0xFF, .none⟩)) ∧
    (tagOf f ≠ 0 → f.length = 2 →
      (s.bus.state = .halting →
        exec .start s = .next ((s.without rest).queued ⟨tagOf f, 0x0B, .busy, 0xFF, .none⟩)) ∧
      (s.bus.state = .running →
        exec .start s = .next ((s.without rest).queued ⟨tagOf f, 0x0B, .done, 0xFF, .started .running s.bus.period⟩)) ∧
      (s.bus.state = .stopped → s.plans.active = [] →
        exec .start s = .next ((s.without rest).queued ⟨tagOf f, 0x0B, .wrongState, 0xFF, .none⟩)) ∧
      (s.bus.state = .stopped → s.plans.active ≠ [] →
        exec .start s = .next (State.queued
          { s.without rest with bus := { s.bus with
              state := .running, cycleNumber := 0, cycleTimer := some 20, firstCycle := true, busTime := 0 } }
          ⟨tagOf f, 0x0B, .done, 0xFF, .started .running s.bus.period⟩)))

/-- The cases of a HALT in order (R83, R84): DONE while STOPPED, BUSY while HALTING; in the gap the stop event of R85 in the
same claim, with every stream still DRAINING closed by R12, the pending entries that this answers erased, and its own DONE
last; with a cycle in progress TABLE FULL or HALTING with a pending entry. The next slot's number after the stop is the
model's (log 9). -/
def Obligations.HaltStopsOrDefers : Prop :=
  ∀ (s : State) (f : Frame) (rest : List Frame), s.canTake f rest → kindOf f = 0x0C →
    (tagOf f = 0 ∨ f.length ≠ 2 →
      exec .halt s = .next ((s.without rest).queued ⟨tagOf f, 0x0C, .badForm, 0xFF, .none⟩)) ∧
    (tagOf f ≠ 0 → f.length = 2 →
      (s.bus.state = .stopped →
        exec .halt s = .next ((s.without rest).queued ⟨tagOf f, 0x0C, .done, 0xFF, .bus .stopped⟩)) ∧
      (s.bus.state = .halting →
        exec .halt s = .next ((s.without rest).queued ⟨tagOf f, 0x0C, .busy, 0xFF, .none⟩)) ∧
      (s.bus.state = .running → s.bus.inProgress = false →
        ∃ t, (s.without rest).stopsTo t ∧
          exec .halt s = .next (t.queued ⟨tagOf f, 0x0C, .done, 0xFF, .bus .stopped⟩)) ∧
      (s.bus.state = .running → s.bus.inProgress = true → 8 ≤ s.req.pendingTable.length →
        exec .halt s = .next ((s.without rest).queued ⟨tagOf f, 0x0C, .tableFull, 0xFF, .none⟩)) ∧
      (s.bus.state = .running → s.bus.inProgress = true → s.req.pendingTable.length < 8 →
        exec .halt s = .next (State.entered
          { s.without rest with bus := { s.bus with state := .halting } } ⟨tagOf f, .halt⟩)))

/-- R86: the checks of a PERIOD in order; one that passes sets the cycle period, and nothing else, and its DONE carries it. -/
def Obligations.PeriodSetWhileStopped : Prop :=
  ∀ (s : State) (f : Frame) (rest : List Frame), s.canTake f rest → kindOf f = 0x0D →
    let p := (byteAt f 2 ++ byteAt f 3 : Half).toNat
    (tagOf f = 0 ∨ f.length ≠ 4 →
      exec .period s = .next ((s.without rest).queued ⟨tagOf f, 0x0D, .badForm, 0xFF, .none⟩)) ∧
    (tagOf f ≠ 0 → f.length = 4 →
      (p < 100 ∨ 10000 < p →
        exec .period s = .next ((s.without rest).queued ⟨tagOf f, 0x0D, .badValue, 0xFF, .none⟩)) ∧
      (100 ≤ p → p ≤ 10000 → s.bus.state ≠ .stopped →
        exec .period s = .next ((s.without rest).queued ⟨tagOf f, 0x0D, .busy, 0xFF, .none⟩)) ∧
      (100 ≤ p → p ≤ 10000 → s.bus.state = .stopped →
        (p < 4 + 2 * s.plans.active.length + 8 ∨ p < 4 + 2 * s.plans.staged.length + 8 →
          exec .period s = .next ((s.without rest).queued ⟨tagOf f, 0x0D, .badValue, 0xFF, .none⟩)) ∧
        (4 + 2 * s.plans.active.length + 8 ≤ p → 4 + 2 * s.plans.staged.length + 8 ≤ p →
          exec .period s = .next (State.queued
            { s.without rest with bus := { s.bus with period := p } } ⟨tagOf f, 0x0D, .done, 0xFF, .period p⟩))))

/-- The cycle-start event (R66, R73, R74): a pending swap first, with the drains it ends, each closed by R12 in ascending order
(R103), their entries and the SWAP's erased, and its DONE with this cycle's number after theirs; then the cycle number (0 after a START, else one more), the slot count of the active plan, the cycle in
progress, the cycle-start frame in the bytes of R164, and the next expiry one period on. The times, the mark of the first cycle and the next
slot's number are the model's (log 9). Not due, it changes nothing (log 1). -/
def Obligations.CycleStartAppliesSwapAndBeginsCycle : Prop :=
  ∀ s : State, s.inService →
    let number : Half := if s.bus.firstCycle then s.bus.cycleNumber else s.bus.cycleNumber + 1
    let begun (time slots : Nat) : CycleEngine :=
      { s.bus with cycleNumber := number, firstCycle := false, slotCount := some slots, inProgress := true, nextSlot := 0
                   busTime := time, busTx := some (.cycleStart number), cycleTimer := some (time + s.bus.period) }
    (∀ time, s.bus.cycleTimer = some time → s.bus.state = .running → s.bus.inProgress = false →
      (s.plans.swapPending = false →
        exec .cycleStart s = .next { s with bus := begun time s.plans.active.length }) ∧
      (s.plans.swapPending = true → ∃ u t, exec .cycleStart s = .next t ∧
        s.swapsTo (some number) u ∧ t = { u with bus := begun time s.plans.staged.length } ∧
        t.plans = { active := s.plans.staged, staged := [], swapPending := false } ∧
        (∀ i, t.opening i = if s.losesSlots i then none else (s.opening i).map (·.recounted s.plans.staged i)) ∧
        (∀ i, (t.stream i).generation = (s.stream i).generation ∧ (t.stream i).counters = (s.stream i).counters) ∧
        t.req.replyQueue = s.req.replyQueue ++ s.drainReplies s.losesSlots ++ s.swapReplies (some number) ∧
        t.req.pendingTable = (s.entriesLeft s.losesSlots).eraseP (·.isSwap) ∧
        ((∀ i, s.losesSlots i = false) →
          t.ring = s.ring ∧ t.coll = s.coll ∧ t.req.notices = s.req.notices ∧ t.req.globals = s.req.globals) ∧
        t.link = s.link ∧ t.req.link = s.req.link ∧ t.req.handling = s.req.handling ∧
        t.clockRunning = s.clockRunning ∧ t.rstLow = s.rstLow ∧ t.pending = s.pending)) ∧
    (s.bus.cycleTimer = none ∨ s.bus.state ≠ .running ∨ s.bus.inProgress = true → exec .cycleStart s = .next s) ∧
    ∀ high low c1 c0 : Byte, c1 ++ c0 = crc16 [0x10, high, low] →
      (BusFrame.cycleStart (high ++ low)).bytes = [0x10, high, low, c1, c0]

/-! ## Slot events -/

/-- A slot event whose plan entry is IDLE or names a CLOSED stream sends IDLE to station 0, channel 0, with no stream in the
slot record; one that names a SWEEPING, PRIMING or STARVED stream sends HOLD with the safe value to its pair under its
generation. Nothing but the Cycle Engine changes (R75, R76, R90). Slot times and next slot are the model's (log 9). Every
slot event asserts BDE with its command frame, in the bytes of R164; a step on the empty queue after it, by which the frame
has gone out (log 17), opens the return window with BDE released and the slot record kept (R77, R165). -/
def Obligations.SlotEventIdlesOrHolds : Prop :=
  (∀ (s : State) (k : Nat) (e : PlanEntry), s.slotDue k e →
    (e = .idle → exec .slotEvent s = .next { s with bus := s.bus.sends k .idle none 0 0 0 }) ∧
    ∀ i : StreamId, e = .stream i →
      (s.opening i = none → exec .slotEvent s = .next { s with bus := s.bus.sends k .idle none 0 0 0 }) ∧
      ∀ o, s.opening i = some o → o.phase = .sweeping ∨ o.phase = .priming ∨ o.phase = .starved →
        exec .slotEvent s = .next { s with
          bus := s.bus.sends k .hold (some (i, (s.stream i).generation)) o.station o.channel o.safeValue }) ∧
  (∀ (s : State) (k : Nat) (e : PlanEntry), s.slotDue k e → ∃ t, exec .slotEvent s = .next t ∧
    (∃ kind station channel value, t.bus.busTx = some (.command kind station channel value)) ∧
    (s.bus.state ≠ .stopped → t.bde = true) ∧
    (s.pending = [] → ∃ u, step t = .next u ∧ u.bde = false ∧ u.bus.windowOpen = true ∧
      u.bus.slotInFlight = t.bus.slotInFlight)) ∧
  ∀ (kind : CommandKind) (station channel : Nat) (v3 v2 v1 v0 c1 c0 : Byte),
    let fields := [(match kind with | .setpoint => 1 | .hold => 2 | .idle => 3), byteOf station, byteOf channel, v3, v2, v1, v0]
    c1 ++ c0 = crc16 fields → (BusFrame.command kind station channel (v3 ++ v2 ++ v1 ++ v0)).bytes = fields ++ [c1, c0]

/-- R92, R101: a visit to a PLAYING or DRAINING stream whose due entry is fresh sends SETPOINT with its value, consumes it, sets
last played, lowers the fresh count, clears the miss run, raises played and advances the play position; the phase and
everything else stay. Slot times and next slot are the model's (log 9). -/
def Obligations.FreshVisitPlaysSample : Prop :=
  ∀ (s : State) (k : Nat) (i : StreamId) (o : Opening) (p : Half) (x : Nat), s.slotDue k (.stream i) → s.opening i = some o →
    o.phase = .playing ∨ o.phase = .draining → o.due p x → (s.ring.read x).freshFor p →
    ∃ r, s.ring.clearsTo (· = x) r ∧
      exec .slotEvent s = .next { s with
        ring := r
        streams := s.streams.put i { s.stream i with
          counters := { (s.stream i).counters with played := (s.stream i).counters.played + 1 }
          opening := some { o with
            lastPlayed := (s.ring.read x).value, freshCount := o.freshCount - 1, missRun := 0, playPos := some (p + 1) } }
        bus := s.bus.sends k .setpoint (some (i, (s.stream i).generation)) o.station o.channel (s.ring.read x).value }

/-- R93, R94: a visit to a PLAYING stream whose due entry is stale sends HOLD with the policy's substitute, consumes the entry,
raises the miss run and substituted, and advances the play position; at the starve limit the stream becomes STARVED,
starve events rises and a STATE notice is raised unless masked off. Last played, fresh count and the rest stay. Slot times
and next slot are the model's (log 9). -/
def Obligations.StaleVisitSubstitutesAndStarves : Prop :=
  ∀ (s : State) (k : Nat) (i : StreamId) (o : Opening) (p : Half) (x : Nat), s.slotDue k (.stream i) → s.opening i = some o →
    o.phase = .playing → o.due p x → ¬ (s.ring.read x).freshFor p →
    let starves : Bool := decide (o.missRun + 1 = o.starveLimit)
    ∃ r, s.ring.clearsTo (· = x) r ∧
      exec .slotEvent s = .next { s with
        ring := r
        streams := s.streams.put i { s.stream i with
          counters := { (s.stream i).counters with
            substituted := (s.stream i).counters.substituted + 1
            starveEvents := (s.stream i).counters.starveEvents + (if starves then 1 else 0) }
          opening := some { o with
            missRun := o.missRun + 1, playPos := some (p + 1), phase := if starves then .starved else .playing } }
        req := { s.req with
          notices := s.req.notices.put i
            { s.noticesOf i with state := (s.noticesOf i).state.raisedIf (starves && o.mask.state) 1 } }
        bus := s.bus.sends k .hold (some (i, (s.stream i).generation)) o.station o.channel o.holdValue }

/-- R102: a visit to a DRAINING stream whose due entry is stale sends HOLD with the policy's substitute under the stream's
generation, raises substituted, and closes the stream with the effects of R12, its CLOSE entry answered DONE. Slot times and
next slot are the model's (log 9). -/
def Obligations.StaleVisitEndsDrain : Prop :=
  ∀ (s : State) (k : Nat) (i : StreamId) (o : Opening) (p : Half) (x : Nat), s.slotDue k (.stream i) → s.opening i = some o →
    o.phase = .draining → o.due p x → ¬ (s.ring.read x).freshFor p →
    ∃ r t, s.ring.clearsTo (· = x) r ∧
      State.closesTo
        { s with
          ring := r
          streams := s.streams.put i { s.stream i with
            counters := { (s.stream i).counters with substituted := (s.stream i).counters.substituted + 1 } } } i o true t ∧
      exec .slotEvent s = .next { t with
        bus := s.bus.sends k .hold (some (i, (s.stream i).generation)) o.station o.channel o.holdValue }

/-! ## Outcomes -/

/-- R78: MISSING when no return frame began; CORRUPT when fewer than 9 bytes came or the check fails; else ALIEN when station or
channel differ from the slot record's, and GOOD with the status byte and the value when they are equal. Of a frame with
more than 9 bytes the first 9 are read (the model's choice, log 13). -/
def Obligations.ReturnClassifiedByItsCheckAndAddress : Prop :=
  ∀ r : SlotRecord, classifyReturn r none = .missing ∧
    (∀ bytes : List Byte, bytes.length < 9 → classifyReturn r (some bytes) = .corrupt) ∧
    ∀ (station channel status v3 v2 v1 v0 c1 c0 : Byte) (more : List Byte),
      let fields := [station, channel, status, v3, v2, v1, v0]
      let frame := fields ++ [c1, c0] ++ more
      (c1 ++ c0 ≠ crc16 fields → classifyReturn r (some frame) = .corrupt) ∧
      (c1 ++ c0 = crc16 fields → station.toNat ≠ r.station ∨ channel.toNat ≠ r.channel →
        classifyReturn r (some frame) = .alien) ∧
      (c1 ++ c0 = crc16 fields → station.toNat = r.station → channel.toNat = r.channel →
        classifyReturn r (some frame) = .good status (v3 ++ v2 ++ v1 ++ v0))

/-- The outcome of a slot that is not the cycle's last and has no stream, or whose stream is CLOSED or holds another
generation: a MISSING one of an IDLE slot changes nothing, any other raises unsolicited returns; an orphan raises orphan
returns, whatever it is; the slot ends and nothing else changes (R77, R79, R80). The time of its end is the model's (log 9). -/
def Obligations.UnattributedOutcomeOnlyCounts : Prop :=
  ∀ (s : State) (r : SlotRecord) (ret : Option (List Byte)) (n : Nat), s.inService → s.bus.slotInFlight = some r →
    s.bus.slotCount = some n → s.bus.nextSlot < n →
    (r.target = none → classifyReturn r ret = .missing →
      exec (.slotOutcome ret) s = .next { s with bus := s.bus.endsSlot r.index }) ∧
    (r.target = none → classifyReturn r ret ≠ .missing →
      exec (.slotOutcome ret) s = .next { s with
        bus := s.bus.endsSlot r.index
        req := { s.req with globals := { s.req.globals with unsolicitedReturns := s.req.globals.unsolicitedReturns + 1 } } }) ∧
    ∀ i g, r.target = some (i, g) → s.opening i = none ∨ (s.stream i).generation ≠ g →
      exec (.slotOutcome ret) s = .next { s with
        bus := s.bus.endsSlot r.index
        req := { s.req with globals := { s.req.globals with orphanReturns := s.req.globals.orphanReturns + 1 } } }

/-- R81, R82, R112, R113: an attributed outcome raises its counter, moves the silent run (with a SILENT notice from 7 to 8,
unless masked off), and hands a return record to the Return Collector, which leaves it, drops it for a stalled stream,
keeps it, or with the buffer full forms a report or stalls the stream. The slot is not the cycle's last. The time of its end
is the model's (log 9). -/
def Obligations.AttributedOutcomeCountsAndCollects : Prop :=
  ∀ (s : State) (r : SlotRecord) (ret : Option (List Byte)) (n : Nat) (i : StreamId) (o : Opening), s.inService →
    s.bus.slotInFlight = some r → s.bus.slotCount = some n → s.bus.nextSlot < n →
    r.target = some (i, (s.stream i).generation) → s.opening i = some o →
    let x := classifyReturn r ret
    let c := (s.stream i).counters
    let isGood : Bool := match x with | .good _ _ => true | .missing => false | .corrupt => false | .alien => false
    let stalled : Prop := o.collectBatch ≠ 0 ∧ i ∈ s.coll.stallList
    let records := s.coll.buffers.at i ++ [{ cycle := s.bus.cycleNumber, slot := r.index, outcome := x }]
    ∃ t, exec (.slotOutcome ret) s = .next t ∧ t.bus = s.bus.endsSlot r.index ∧
      t.opening i = some { o with
        silentRun := if isGood then 0 else if x = .missing ∧ o.silentRun < 8 then o.silentRun + 1 else o.silentRun } ∧
      (t.stream i).generation = (s.stream i).generation ∧
      (t.stream i).counters = { c with
        returnsGood := c.returnsGood + (if isGood then 1 else 0), missing := c.missing + (if x = .missing then 1 else 0)
        corrupt := c.corrupt + (if x = .corrupt then 1 else 0), alien := c.alien + (if x = .alien then 1 else 0)
        collectDropped := c.collectDropped + (if o.collectBatch ≠ 0 ∧ i ∈ s.coll.stallList then 1 else 0) } ∧
      (∀ j, j ≠ i → t.stream j = s.stream j) ∧
      t.req = { s.req with notices := s.req.notices.put i { s.noticesOf i with
        silent := (s.noticesOf i).silent.raisedIf (decide (x = .missing ∧ o.silentRun = 7) && o.mask.silent) 1 } } ∧
      (o.collectBatch = 0 → t.coll = s.coll) ∧
      (stalled → t.coll = { s.coll with tallies := s.coll.tallies.put i (min (s.coll.tallies.at i + 1) 65535) }) ∧
      (o.collectBatch ≠ 0 → i ∉ s.coll.stallList → records.length < o.collectBatch →
        t.coll = { s.coll with buffers := s.coll.buffers.put i records }) ∧
      (o.collectBatch ≠ 0 → i ∉ s.coll.stallList → o.collectBatch ≤ records.length → s.coll.queue.length < 12 →
        t.coll = { s.coll with
          buffers := s.coll.buffers.put i [], tallies := s.coll.tallies.put i 0
          queue := s.coll.queue ++ [{ stream := i, generation := (s.stream i).generation, final := false
                                      dropped := s.coll.tallies.at i, records := records }] }) ∧
      (o.collectBatch ≠ 0 → i ∉ s.coll.stallList → o.collectBatch ≤ records.length → 12 ≤ s.coll.queue.length →
        t.coll = { s.coll with buffers := s.coll.buffers.put i records, stallList := s.coll.stallList ++ [i] }) ∧
      t.ring = s.ring ∧ t.plans = s.plans ∧ t.link = s.link ∧
      t.clockRunning = s.clockRunning ∧ t.rstLow = s.rstLow ∧ t.pending = s.pending

/-- The outcome of a cycle's last slot acts as the same outcome would with one slot more to come, and then the cycle ends: the
bus is in the gap; in HALTING it stops by R85, with every stream still DRAINING closed by R12 and the pending entries that
this answers erased, and the HALT's entry is answered DONE last (R75, R84). The next slot's number after the stop is the
model's (log 9). -/
def Obligations.LastOutcomeEndsCycleOrStopsBus : Prop :=
  ∀ (s u : State) (r : SlotRecord) (ret : Option (List Byte)) (n : Nat), s.inService → s.bus.slotInFlight = some r →
    s.bus.slotCount = some n → n ≤ s.bus.nextSlot →
    exec (.slotOutcome ret) { s with bus := { s.bus with slotCount := some (s.bus.nextSlot + 1) } } = .next u →
    (s.bus.state ≠ .halting → exec (.slotOutcome ret) s = .next { u with
      bus := { u.bus with inProgress := false, slotCount := none } }) ∧
    (s.bus.state = .halting → ∃ t, u.stopsTo t ∧ exec (.slotOutcome ret) s = .next { t with req := { t.req with
      pendingTable := t.req.pendingTable.eraseP fun e => decide (e.job = .halt)
      replyQueue := t.req.replyQueue ++
        ((t.req.pendingTable.find? fun e => decide (e.job = .halt)).map fun e =>
          Reply.mk e.tag 0x0C .done 0xFF (.bus .stopped)).toList } })

/-! ## Bundles -/

/-- R39, R41, R42: a malformed bundle touches no record and is answered BAD FORM, or counted as bad form with tag 0; one for a
CLOSED stream raises the global counter by 1; one for a SWEEPING or DRAINING stream raises refused by its count. The two
last are answered, with counts of 0 and the state, when the tag asks for it. Nothing else changes. -/
def Obligations.BundleNotPlacedIsCounted : Prop :=
  ∀ (s : State) (f : Frame) (rest : List Frame), s.canTake f rest → kindOf f = 0x20 →
    let acknowledged (t : State) (status : Status) (st : StreamState) : State :=
      if tagOf f = 0 then t else t.queued ⟨tagOf f, 0x20, status, byteAt f 2, .bundle 0 0 0 0 st⟩
    (parseBundle f = none → tagOf f ≠ 0 →
      exec .bundle s = .next ((s.without rest).queued ⟨tagOf f, 0x20, .badForm, 0xFF, .none⟩)) ∧
    (parseBundle f = none → tagOf f = 0 →
      exec .bundle s = .next { s with link := { s.link with
        rxBuf := rest, counters := { s.link.counters with badForm := s.link.counters.badForm + 1 } } }) ∧
    ∀ q, parseBundle f = some q →
      (s.opening q.stream = none → exec .bundle s = .next (acknowledged
        { s.without rest with req := { s.req with globals :=
            { s.req.globals with bundlesForClosed := s.req.globals.bundlesForClosed + 1 } } } .noStream .closed)) ∧
      ∀ o, s.opening q.stream = some o → o.phase = .sweeping ∨ o.phase = .draining →
        exec .bundle s = .next (acknowledged
          { s.without rest with streams := s.streams.put q.stream { s.stream q.stream with
              counters := { (s.stream q.stream).counters with
                refused := (s.stream q.stream).counters.refused + BitVec.ofNat 32 q.values.length } } }
          .wrongState o.phase.state)

/-- A classified bundle (R40, R43 to R45, R49 to R52): an adopting stream takes the first sequence as its play position; the
fresh count and the counters rise by what became of the samples; a PRIMING stream that reaches its prime depth is
PLAYING with a STATE notice; late and ahead samples raise a DISCARD notice by their number; a tag is answered DONE with
the four counts, which add up, and the state. The ring's shape is the premise `classifies` (R23). -/
def Obligations.BundleClassifiedInOneClaim : Prop :=
  ∀ (s : State) (f : Frame) (rest : List Frame) (q : BundleRequest) (o : Opening), s.classifies f rest q o →
    let pos := o.playPos.getD q.first
    let placed := s.countOf o pos q .placed
    let duplicate := s.countOf o pos q .duplicate
    let late := s.countOf o pos q .late
    let ahead := s.countOf o pos q .ahead
    let plays : Bool := decide (o.phase = .priming ∧ o.primeDepth ≤ o.freshCount + placed)
    let phase : Phase := if plays then .playing else o.phase
    let c := (s.stream q.stream).counters
    placed + duplicate + late + ahead = q.values.length ∧
    ∃ t, exec .bundle s = .next t ∧
      t.opening q.stream = some { o with playPos := some pos, freshCount := o.freshCount + placed, phase := phase } ∧
      (t.stream q.stream).generation = (s.stream q.stream).generation ∧
      (t.stream q.stream).counters = { c with
        placed := c.placed + BitVec.ofNat 32 placed, duplicate := c.duplicate + BitVec.ofNat 32 duplicate
        late := c.late + BitVec.ofNat 32 late, ahead := c.ahead + BitVec.ofNat 32 ahead } ∧
      (∀ j, j ≠ q.stream → t.stream j = s.stream j) ∧
      t.req.notices = s.req.notices.put q.stream { s.noticesOf q.stream with
        state := (s.noticesOf q.stream).state.raisedIf (plays && o.mask.state) 1
        discard := (s.noticesOf q.stream).discard.raisedIf (decide (late + ahead ≠ 0) && o.mask.discard) (late + ahead) } ∧
      t.req.replyQueue = s.req.replyQueue ++ (if tagOf f = 0 then [] else
        [⟨tagOf f, 0x20, .done, byteAt f 2, .bundle placed duplicate late ahead phase.state⟩]) ∧
      t.req.pendingTable = s.req.pendingTable ∧ t.req.globals = s.req.globals ∧ t.req.link = s.req.link ∧
      t.req.handling = none ∧ t.link = { s.link with rxBuf := rest } ∧ t.plans = s.plans ∧ t.bus = s.bus ∧ t.coll = s.coll ∧
      t.clockRunning = s.clockRunning ∧ t.rstLow = s.rstLow ∧ t.pending = s.pending

/-- Where a classified bundle writes (R23, R24 (1), R45, R47): each sample inside the window whose entry is not held is written
into the entry at its ring index, with its value, its sequence number for a tag, and held; every other entry of the
store, and its free list, sweep queue and engine, stay. -/
def Obligations.PlacedSamplesAreWrittenAtTheirIndex : Prop :=
  ∀ (s : State) (f : Frame) (rest : List Frame) (q : BundleRequest) (o : Opening), s.classifies f rest q o →
    let pos := o.playPos.getD q.first
    let placedAt (k x : Nat) : Prop := k < q.values.length ∧ s.classOf o pos (q.seqAt k) = .placed ∧
      o.ringEntry ((q.seqAt k).toNat % o.ringSize) = some x
    ∃ t, exec .bundle s = .next t ∧
      (∀ k, k < q.values.length → s.classOf o pos (q.seqAt k) = .placed → ∃ x, placedAt k x) ∧
      (∀ k x, placedAt k x → t.ring.read x = { value := q.values.getD k 0, tag := q.seqAt k, held := true }) ∧
      (∀ x, (∀ k, ¬ placedAt k x) → t.ring.read x = s.ring.read x) ∧
      t.ring.epoch = s.ring.epoch ∧ t.ring.freeBlocks = s.ring.freeBlocks ∧ t.ring.sweepQueue = s.ring.sweepQueue ∧
      t.ring.engine = s.ring.engine

/-! ## Sweeping -/

/-- The busy engine voids all 32 entries of the next block of the stream under sweep, and no other entry; after the last block
the stream is PRIMING with fresh count and miss run 0, its entry is answered DONE with the generation (a RESUME's with
the state too, log 11), and the engine takes the queue head or is IDLE (R31 to R33). Commanded on an idle engine the event
changes nothing (the model's choice, log 1). -/
def Obligations.BlockVoidedAndSweepCompleted : Prop :=
  (∀ s : State, s.inService → s.ring.engine = .idle → exec .blockVoided s = .next s) ∧
  ∀ (s : State) (i : StreamId) (v : Nat) (o : Opening) (b : BlockId), s.inService → s.ring.engine = .busy i v →
    s.opening i = some o → o.blockMap[v]? = some b →
    ∃ r, s.ring.clearsTo (fun k => b.val * 32 ≤ k ∧ k < b.val * 32 + 32) r ∧
      (v + 1 ≠ o.blockMap.length → exec .blockVoided s = .next { s with ring := { r with engine := .busy i (v + 1) } }) ∧
      (v + 1 = o.blockMap.length → ∀ e, s.req.pendingTable.find? (·.isOf i) = some e → (e.job = .openOf i ∨ e.job = .resumeOf i) →
        exec .blockVoided s = .next { s with
          streams := s.streams.put i { s.stream i with
            opening := some { o with phase := .priming, freshCount := 0, missRun := 0 } }
          req := { s.req with
            pendingTable := s.req.pendingTable.eraseP (·.isOf i)
            replyQueue := s.req.replyQueue ++ [⟨e.tag, e.job.kind, .done, byteOf i.val,
              if e.job = .openOf i then .generation (s.stream i).generation
              else .stateGeneration .priming (s.stream i).generation⟩] }
          ring := { r with
            sweepQueue := s.ring.sweepQueue.tail
            engine := (match s.ring.sweepQueue with | [] => .idle | j :: _ => .busy j 0) } })

/-! ## Sending -/

/-- A report is picked after four frames without one, or when no reply and no notice waits: it leaves the queue head, is sent
with the credits of the free receive places, and frames since report is 0; the stall list head, if any, hands its buffer
on as a report with final flag no (R116, R134, R137 (1), (5), R139 (3)). A report's bytes, record by record, are those of
R163. -/
def Obligations.ReportPickedAndStallReleased : Prop :=
  (∀ (s : State) (r : Report) (reports : List Report), s.inService → s.link.tx = .idle → s.coll.queue = r :: reports →
    (s.link.sinceReport = 4 ∨ (s.req.replyQueue = [] ∧ s.req.link.flag = false ∧
      ∀ i, (s.noticesOf i).state.flag = false ∧ (s.noticesOf i).discard.flag = false ∧ (s.noticesOf i).silent.flag = false)) →
    let sent : FeedLink :=
      { s.link with tx := .sending (frameBytes (r.body (8 - s.link.rxBuf.length))), sinceReport := 0 }
    (s.coll.stallList = [] → exec .pick s = .next { s with coll := { s.coll with queue := reports }, link := sent }) ∧
    ∀ j stalled, s.coll.stallList = j :: stalled → exec .pick s = .next { s with
      coll := { buffers := s.coll.buffers.put j [], tallies := s.coll.tallies.put j 0, stallList := stalled
                queue := reports ++ [{ stream := j, generation := (s.stream j).generation, final := false
                                       dropped := s.coll.tallies.at j, records := s.coll.buffers.at j }] }
      link := sent }) ∧
  (∀ (r : Report) (credits : Nat), r.body credits =
    [0x42, 0, byteOf credits, byteOf r.stream.val, r.generation, if r.final then 1 else 0] ++ num16 r.dropped ++
    [byteOf r.records.length] ++ r.records.flatMap ReturnRecord.bytes) ∧
  ∀ (cycle : Half) (slot : Nat),
    (∀ (status : Byte) (value : Word), ReturnRecord.bytes { cycle := cycle, slot := slot, outcome := .good status value } =
      bytes16 cycle ++ [byteOf slot, 0, status] ++ bytes32 value) ∧
    ReturnRecord.bytes { cycle := cycle, slot := slot, outcome := .missing } = bytes16 cycle ++ [byteOf slot, 1] ∧
    ReturnRecord.bytes { cycle := cycle, slot := slot, outcome := .corrupt } = bytes16 cycle ++ [byteOf slot, 2] ∧
    ReturnRecord.bytes { cycle := cycle, slot := slot, outcome := .alien } = bytes16 cycle ++ [byteOf slot, 3]

/-- A reply is picked when there is one and no report is due after four frames: it leaves the queue head, is sent with the
credits of the free receive places, and frames since report rises by 1, holding at 4 (R134, R137 (2), R139 (1)). A
reply's bytes are those of R161: kind, tag, credits, the kind answered, status, stream, and the result fields, with its
codes, and every field of two or four bytes high byte first. -/
def Obligations.ReplyPickedBeforeNotices : Prop :=
  (∀ (s : State) (r : Reply) (replies : List Reply), s.inService → s.link.tx = .idle → s.req.replyQueue = r :: replies →
    ¬ (s.link.sinceReport = 4 ∧ s.coll.queue ≠ []) →
    exec .pick s = .next { s with
      req := { s.req with replyQueue := replies }
      link := { s.link with
        tx := .sending (frameBytes (r.body (8 - s.link.rxBuf.length))), sinceReport := min (s.link.sinceReport + 1) 4 } }) ∧
  (∀ (r : Reply) (credits : Nat), r.body credits =
    [0x40, r.tag, byteOf credits, r.kind, r.status.code, r.stream] ++ r.result.bytes) ∧
  [Status.done, .cancelled, .badForm, .badValue, .noStream, .wrongState, .inUse, .noSpace, .tableFull, .busy, .unknownKind].map
    Status.code = [0x00, 0x01, 0x02, 0x03, 0x04, 0x05, 0x06, 0x07, 0x08, 0x09, 0x0A] ∧
  [StreamState.closed, .sweeping, .priming, .playing, .starved, .draining].map StreamState.code = [0, 1, 2, 3, 4, 5] ∧
  [BusState.stopped, .running, .halting].map BusState.code = [0, 1, 2] ∧
  (∀ (st : StreamState) (bus : BusState) (g : Byte) (n p a b c d : Nat) (cycle : Half),
    ReplyResult.none.bytes = [] ∧ (ReplyResult.generation g).bytes = [g] ∧
    (ReplyResult.stateGeneration st g).bytes = [st.code, g] ∧ (ReplyResult.state st).bytes = [st.code] ∧
    (ReplyResult.recordCount n).bytes = [byteOf n] ∧ (ReplyResult.slotCount n).bytes = [byteOf n] ∧
    (ReplyResult.swapped n none).bytes = [byteOf n, 0, 0, 0] ∧
    (ReplyResult.swapped n (some cycle)).bytes = [byteOf n, 1] ++ bytes16 cycle ∧
    (ReplyResult.started bus p).bytes = [bus.code] ++ num16 p ∧ (ReplyResult.bus bus).bytes = [bus.code] ∧
    (ReplyResult.period p).bytes = num16 p ∧
    (ReplyResult.bundle a b c d st).bytes = [byteOf a, byteOf b, byteOf c, byteOf d, st.code]) ∧
  (∀ (st : StreamState) (g : Byte) (k : StreamCounters), (ReplyResult.streamCounters st g k).bytes = [st.code, g] ++ k.bytes) ∧
  ∀ b3 b2 b1 b0 : Byte, bytes16 (b1 ++ b0) = [b1, b0] ∧ bytes32 (b3 ++ b2 ++ b1 ++ b0) = [b3, b2, b1, b0]

/-- A notice is picked when no reply waits and no report is due: LINK first, else a stream notice, of the first stream with a
flag going round from the one after last notice stream, and of its first kind in the order STATE, DISCARD, SILENT. Its
flag and count are cleared, and it is sent with its count, the credits, and for STATE the stream's state at the pick.
With nothing waiting there is no pick (R134, R137 (3), (4), R138, R139 (2), R156, R163; log 1). -/
def Obligations.NoticePickedInRound : Prop :=
  ∀ s : State, s.inService → s.link.tx = .idle → s.req.replyQueue = [] → ¬ (s.link.sinceReport = 4 ∧ s.coll.queue ≠ []) →
    let credits := byteOf (8 - s.link.rxBuf.length)
    let waits (j : StreamId) : Prop :=
      (s.noticesOf j).state.flag = true ∨ (s.noticesOf j).discard.flag = true ∨ (s.noticesOf j).silent.flag = true
    let since := min (s.link.sinceReport + 1) 4
    (s.req.link.flag = true → exec .pick s = .next { s with
      req := { s.req with link := { flag := false, count := 0 } }
      link := { s.link with
        tx := .sending (frameBytes ([0x41, 0, credits, 4, 0xFF] ++ bytes32 s.req.link.count)), sinceReport := since } }) ∧
    (∀ i : StreamId, s.req.link.flag = false → waits i →
      (∀ j : StreamId, (j - (s.link.lastNotice + 1)).val < (i - (s.link.lastNotice + 1)).val → ¬ waits j) →
      let n := s.noticesOf i
      let picked (code : Byte) (count : Word) (state : List Byte) (left : StreamNotices) : State := { s with
        req := { s.req with notices := s.req.notices.put i left }
        link := { s.link with
          tx := .sending (frameBytes ([0x41, 0, credits, code, byteOf i.val] ++ bytes32 count ++ state))
          sinceReport := since, lastNotice := i } }
      (n.state.flag = true → exec .pick s = .next
        (picked 1 n.state.count [(s.stream i).state.code] { n with state := { flag := false, count := 0 } })) ∧
      (n.state.flag = false → n.discard.flag = true → exec .pick s = .next
        (picked 2 n.discard.count [] { n with discard := { flag := false, count := 0 } })) ∧
      (n.state.flag = false → n.discard.flag = false → n.silent.flag = true → exec .pick s = .next
        (picked 3 n.silent.count [] { n with silent := { flag := false, count := 0 } }))) ∧
    (s.req.link.flag = false → (∀ j, ¬ waits j) → s.coll.queue = [] → exec .pick s = .next s)

/-- When the last check byte of the frame being sent has gone out, frames sent rises by 1 and the transmit framer is IDLE; with
a source that holds a frame the run of bytes goes on, since that frame follows with no gap, and else it ends; nothing else
changes. With no frame being sent, nothing changes, and while one is, there is no pick (R135, R136; log 1).
A frame is its sync byte, length, body and check (R126). FTX stands high while nothing is sent or RST is low, and else runs
through the frame's bits, each edge at the CLK period of R125, counted from the first byte of the run: a byte is a start
bit, 8 data bits least significant first and a stop bit. A receiver takes the byte again, whatever the stop bit. That a 1
stands high, the count of the run's bits in a field of its own, and that a run goes on exactly when a source holds a frame as
the frame before is done, are the model's reading (log 16). -/
def Obligations.FrameSentFreesTransmitter : Prop :=
  (∀ s : State, s.inService →
    (∀ bytes, s.link.tx = .sending bytes →
      let holds : Prop := s.req.replyQueue ≠ [] ∨ s.req.link.flag = true ∨ s.coll.queue ≠ [] ∨
        ∃ i, (s.noticesOf i).state.flag = true ∨ (s.noticesOf i).discard.flag = true ∨ (s.noticesOf i).silent.flag = true
      let sent (run : Nat) : State := { s with link := { s.link with
        tx := .idle, runSent := run, counters := { s.link.counters with framesSent := s.link.counters.framesSent + 1 } } }
      (holds → exec .frameSent s = .next (sent (s.link.runSent + 10 * bytes.length))) ∧
      (¬ holds → exec .frameSent s = .next (sent 0)) ∧
      exec .pick s = .next s) ∧
    (s.link.tx = .idle → exec .frameSent s = .next s)) ∧
  (∀ (body : List Byte) (c1 c0 : Byte), c1 ++ c0 = crc16 (byteOf body.length :: body) →
    frameBytes body = [0xB4, byteOf body.length] ++ body ++ [c1, c0]) ∧
  (∀ (s : State) (clk : Nat), (s.link.tx = .idle ∨ s.rstLow = true → s.ftx clk = true) ∧
    ∀ bytes rate n, s.link.tx = .sending bytes → s.link.rate = some rate → s.rstLow = false →
      rate.edge (s.link.runSent + n) ≤ rate.edge s.link.runSent + clk →
      rate.edge s.link.runSent + clk < rate.edge (s.link.runSent + n + 1) →
      s.ftx clk = ((bytes.flatMap lineBits)[n]?).getD true) ∧
  (∀ b : Byte, lineBits b = [false, b.getLsbD 0, b.getLsbD 1, b.getLsbD 2, b.getLsbD 3, b.getLsbD 4, b.getLsbD 5, b.getLsbD 6,
    b.getLsbD 7, true]) ∧
  (∀ n, LinkRate.r1.edge n = 50 * n ∧ (50 * n ≤ 3 * LinkRate.r3.edge n ∧ 3 * LinkRate.r3.edge n < 50 * n + 3) ∧
    (50 * n ≤ 6 * LinkRate.r6.edge n ∧ 6 * LinkRate.r6.edge n < 50 * n + 6) ∧
    (50 * n ≤ 12 * LinkRate.r12.edge n ∧ 12 * LinkRate.r12.edge n < 50 * n + 12)) ∧
  (∀ (b : Byte) (stop : Bool) (rest : List Bool),
    LineReceiver.waiting.take (false :: (dataBits b ++ stop :: rest)) = b :: LineReceiver.waiting.take rest) ∧
  ∀ rest : List Bool, LineReceiver.waiting.take (true :: rest) = LineReceiver.waiting.take rest

/-! ## What every command and every step keep -/

/-- R4: a generation changes only at an accepted OPEN, which raises it by 1, wrapping, and at power-on reset, which sets it
to 0. -/
def Obligations.GenerationChangesOnlyAtOpenOrPowerOn : Prop :=
  ∀ (c : Instr) (s t : State) (i : StreamId), exec c s = .next t →
    (t.stream i).generation = (s.stream i).generation ∨
    (c = .openStream ∧ s.opening i = none ∧ (t.opening i).isSome = true ∧
      (t.stream i).generation = (s.stream i).generation + 1) ∨
    ∃ cause r1 r0, c = .powerOnReset cause r1 r0 ∧ (t.stream i).generation = 0

/-- Every step keeps the canonical form of the Ring Store's list, the bound of 16 on replies and pending entries together, that
of 8 on the entries, and the capacities of the receive buffer and the report queue (R21, R115, R132, R137, R145, R148). -/
def Obligations.EveryStepKeepsCapacities : Prop :=
  ∀ s t : State, step s = .next t →
    (s.ring.wf → t.ring.wf) ∧ (s.repliesFit → t.repliesFit) ∧ (s.queuesFit → t.queuesFit) ∧
    (s.req.handling = none → t.req.handling = none)

/-- Every step keeps the pairing law of R3, and the pair and ring of an open stream stay while it is open (R3, R27). -/
def Obligations.EveryStepKeepsPairsDistinct : Prop :=
  ∀ s t : State, step s = .next t → (s.pairsDistinct → t.pairsDistinct) ∧
    ∀ i o p, s.opening i = some o → t.opening i = some p → (t.stream i).generation = (s.stream i).generation →
      p.station = o.station ∧ p.channel = o.channel ∧ p.ringSize = o.ringSize ∧ p.blockMap = o.blockMap

/-- Every step keeps every block exactly once across the free list and the block maps, and every ring its shape (R23, R26, R27). -/
def Obligations.EveryStepKeepsBlocksOnce : Prop :=
  ∀ s t : State, step s = .next t → (s.blocksOnce → t.blocksOnce) ∧ (s.ringsShaped → t.ringsShaped)

/-- Every step keeps the miss run of a PLAYING or DRAINING stream below its starve limit, and never above 31 (R94). -/
def Obligations.EveryStepKeepsMissRuns : Prop :=
  ∀ s t : State, step s = .next t → s.missRunsOk → t.missRunsOk

/-- Every step keeps the sweep queue: exactly the SWEEPING streams the engine is not working on, once each (R29, R31). -/
def Obligations.EveryStepKeepsSweepQueue : Prop :=
  ∀ s t : State, step s = .next t → s.sweepsOk → t.sweepsOk

/-- Every step keeps the fit law and the laws of the bus: both plans fit the period; no empty plan runs; a swap is pending only
on a running bus; active slots are counted from the active plan; the Cycle Engine's state is consistent; a STOPPED bus
leaves no stream DRAINING (R19, R57 to R60, R63 to R65, R71, R73 to R75, R84, R104). The next slot's number is the model's
own field, and so are its clauses of busOk: the slot in flight is the one before it, and slots are left (log 9). -/
def Obligations.EveryStepKeepsPlansAndBus : Prop :=
  ∀ s t : State, step s = .next t →
    (s.plansOk → t.plansOk) ∧ (s.slotsCounted → t.slotsCounted) ∧ (s.plansOk → s.busOk → t.busOk) ∧ (s.drainsOk → t.drainsOk)

/-- Every step keeps a set flag with a count of at least 1 and a clear flag with a count of 0 (R155). -/
def Obligations.EveryStepKeepsNotices : Prop :=
  ∀ s t : State, step s = .next t → s.noticesOk → t.noticesOk

/-- Every step keeps the laws of the Return Collector: the stall list is exactly the streams with full buffers, and is empty
unless the report queue is full; closed streams have empty buffers; no buffer passes 16 records (R110, R112, R113). -/
def Obligations.EveryStepKeepsStallList : Prop :=
  ∀ s t : State, step s = .next t → s.stallsOk → t.stallsOk

/-- Every step keeps the pending reply table: one entry for each SWEEPING or DRAINING stream, one for a pending swap, one for a
deferred HALT, each of the right kind, and no other (R33, R148). -/
def Obligations.EveryStepKeepsPendingTable : Prop :=
  ∀ s t : State, step s = .next t → s.pendingOk → t.pendingOk

/-- Every step keeps the two laws of R25 for every open stream that is not SWEEPING, and the blocks the engine has voided
empty, in a part whose rings have their shape, whose blocks stand once each and whose sweep queue is in order. -/
def Obligations.EveryStepKeepsRingLaws : Prop :=
  ∀ s t : State, step s = .next t → s.ringsShaped → s.blocksOnce → s.sweepsOk → s.contentsOk → t.contentsOk
end

