-- ==== Sys2Proof/Laws/State.lean ====
section
/-! SUPPORT. One lemma per field per named update of the state, the tables by stream, and the records of a state. -/

namespace Sys2Proof.Machine

/-! ## Tables by stream -/

/-- A table's value is the element at the stream's number. -/
theorem PerStream.at_eq_getElem {α : Type} (t : PerStream α) (i : StreamId) : t.at i = t[i.val] := rfl

@[simp] theorem PerStream.at_put_self {α : Type} (t : PerStream α) (i : StreamId) (x : α) : (t.put i x).at i = x := by
  rw [PerStream.at_eq_getElem, PerStream.put]; exact Vector.getElem_set_self _

@[simp] theorem PerStream.at_put_ne {α : Type} (t : PerStream α) {i j : StreamId} (x : α) (h : j ≠ i) :
    (t.put i x).at j = t.at j := by
  rw [PerStream.at_eq_getElem, PerStream.put]; exact Vector.getElem_set_ne _ _ fun e => h (Fin.ext e.symm)

theorem PerStream.at_put {α : Type} (t : PerStream α) (i j : StreamId) (x : α) :
    (t.put i x).at j = if j = i then x else t.at j := by
  by_cases h : j = i
  · subst h; simp
  · simp [h]

@[simp] theorem PerStream.at_tabulate {α : Type} (f : StreamId → α) (i : StreamId) : (PerStream.tabulate f).at i = f i := by
  rw [PerStream.at_eq_getElem, PerStream.tabulate, Vector.getElem_ofFn]

@[simp] theorem PerStream.at_replicate {α : Type} (x : α) (i : StreamId) :
    PerStream.at (Vector.replicate 64 x : PerStream α) i = x := by
  rw [PerStream.at_eq_getElem, Vector.getElem_replicate]

/-- Two tables with the same value for every stream are equal. -/
theorem PerStream.ext_at {α : Type} {t u : PerStream α} (h : ∀ i, t.at i = u.at i) : t = u := by
  refine Vector.ext fun k hk => ?_
  exact h ⟨k, hk⟩

@[simp] theorem PerStream.put_at {α : Type} (t : PerStream α) (i : StreamId) : t.put i (t.at i) = t :=
  PerStream.ext_at fun j => by
    rw [PerStream.at_put]
    split
    · next h => rw [h]
    · rfl

@[simp] theorem PerStream.put_put {α : Type} (t : PerStream α) (i : StreamId) (x y : α) :
    (t.put i x).put i y = t.put i y :=
  PerStream.ext_at fun j => by
    rw [PerStream.at_put, PerStream.at_put, PerStream.at_put]
    split <;> rfl

theorem mem_allStreams (i : StreamId) : i ∈ allStreams := List.mem_finRange i

/-! ## The named updates, field by field -/

@[simp] theorem State.withStreams_streams (s : State) (t : PerStream StreamRec) : (s.withStreams t).streams = t := rfl
@[simp] theorem State.withStreams_ring (s : State) (t : PerStream StreamRec) : (s.withStreams t).ring = s.ring := rfl
@[simp] theorem State.withStreams_plans (s : State) (t : PerStream StreamRec) : (s.withStreams t).plans = s.plans := rfl
@[simp] theorem State.withStreams_bus (s : State) (t : PerStream StreamRec) : (s.withStreams t).bus = s.bus := rfl
@[simp] theorem State.withStreams_coll (s : State) (t : PerStream StreamRec) : (s.withStreams t).coll = s.coll := rfl
@[simp] theorem State.withStreams_link (s : State) (t : PerStream StreamRec) : (s.withStreams t).link = s.link := rfl
@[simp] theorem State.withStreams_req (s : State) (t : PerStream StreamRec) : (s.withStreams t).req = s.req := rfl
@[simp] theorem State.withStreams_clockRunning (s : State) (t : PerStream StreamRec) :
    (s.withStreams t).clockRunning = s.clockRunning := rfl
@[simp] theorem State.withStreams_rstLow (s : State) (t : PerStream StreamRec) : (s.withStreams t).rstLow = s.rstLow := rfl
@[simp] theorem State.withStreams_pending (s : State) (t : PerStream StreamRec) :
    (s.withStreams t).pending = s.pending := rfl

@[simp] theorem State.withRing_streams (s : State) (r : RingStore) : (s.withRing r).streams = s.streams := rfl
@[simp] theorem State.withRing_ring (s : State) (r : RingStore) : (s.withRing r).ring = r := rfl
@[simp] theorem State.withRing_plans (s : State) (r : RingStore) : (s.withRing r).plans = s.plans := rfl
@[simp] theorem State.withRing_bus (s : State) (r : RingStore) : (s.withRing r).bus = s.bus := rfl
@[simp] theorem State.withRing_coll (s : State) (r : RingStore) : (s.withRing r).coll = s.coll := rfl
@[simp] theorem State.withRing_link (s : State) (r : RingStore) : (s.withRing r).link = s.link := rfl
@[simp] theorem State.withRing_req (s : State) (r : RingStore) : (s.withRing r).req = s.req := rfl
@[simp] theorem State.withRing_clockRunning (s : State) (r : RingStore) :
    (s.withRing r).clockRunning = s.clockRunning := rfl
@[simp] theorem State.withRing_rstLow (s : State) (r : RingStore) : (s.withRing r).rstLow = s.rstLow := rfl
@[simp] theorem State.withRing_pending (s : State) (r : RingStore) : (s.withRing r).pending = s.pending := rfl

@[simp] theorem State.withPlans_streams (s : State) (p : PlanStore) : (s.withPlans p).streams = s.streams := rfl
@[simp] theorem State.withPlans_ring (s : State) (p : PlanStore) : (s.withPlans p).ring = s.ring := rfl
@[simp] theorem State.withPlans_plans (s : State) (p : PlanStore) : (s.withPlans p).plans = p := rfl
@[simp] theorem State.withPlans_bus (s : State) (p : PlanStore) : (s.withPlans p).bus = s.bus := rfl
@[simp] theorem State.withPlans_coll (s : State) (p : PlanStore) : (s.withPlans p).coll = s.coll := rfl
@[simp] theorem State.withPlans_link (s : State) (p : PlanStore) : (s.withPlans p).link = s.link := rfl
@[simp] theorem State.withPlans_req (s : State) (p : PlanStore) : (s.withPlans p).req = s.req := rfl
@[simp] theorem State.withPlans_clockRunning (s : State) (p : PlanStore) :
    (s.withPlans p).clockRunning = s.clockRunning := rfl
@[simp] theorem State.withPlans_rstLow (s : State) (p : PlanStore) : (s.withPlans p).rstLow = s.rstLow := rfl
@[simp] theorem State.withPlans_pending (s : State) (p : PlanStore) : (s.withPlans p).pending = s.pending := rfl

@[simp] theorem State.withBus_streams (s : State) (b : CycleEngine) : (s.withBus b).streams = s.streams := rfl
@[simp] theorem State.withBus_ring (s : State) (b : CycleEngine) : (s.withBus b).ring = s.ring := rfl
@[simp] theorem State.withBus_plans (s : State) (b : CycleEngine) : (s.withBus b).plans = s.plans := rfl
@[simp] theorem State.withBus_bus (s : State) (b : CycleEngine) : (s.withBus b).bus = b := rfl
@[simp] theorem State.withBus_coll (s : State) (b : CycleEngine) : (s.withBus b).coll = s.coll := rfl
@[simp] theorem State.withBus_link (s : State) (b : CycleEngine) : (s.withBus b).link = s.link := rfl
@[simp] theorem State.withBus_req (s : State) (b : CycleEngine) : (s.withBus b).req = s.req := rfl
@[simp] theorem State.withBus_clockRunning (s : State) (b : CycleEngine) :
    (s.withBus b).clockRunning = s.clockRunning := rfl
@[simp] theorem State.withBus_rstLow (s : State) (b : CycleEngine) : (s.withBus b).rstLow = s.rstLow := rfl
@[simp] theorem State.withBus_pending (s : State) (b : CycleEngine) : (s.withBus b).pending = s.pending := rfl

@[simp] theorem State.withColl_streams (s : State) (c : Collector) : (s.withColl c).streams = s.streams := rfl
@[simp] theorem State.withColl_ring (s : State) (c : Collector) : (s.withColl c).ring = s.ring := rfl
@[simp] theorem State.withColl_plans (s : State) (c : Collector) : (s.withColl c).plans = s.plans := rfl
@[simp] theorem State.withColl_bus (s : State) (c : Collector) : (s.withColl c).bus = s.bus := rfl
@[simp] theorem State.withColl_coll (s : State) (c : Collector) : (s.withColl c).coll = c := rfl
@[simp] theorem State.withColl_link (s : State) (c : Collector) : (s.withColl c).link = s.link := rfl
@[simp] theorem State.withColl_req (s : State) (c : Collector) : (s.withColl c).req = s.req := rfl
@[simp] theorem State.withColl_clockRunning (s : State) (c : Collector) :
    (s.withColl c).clockRunning = s.clockRunning := rfl
@[simp] theorem State.withColl_rstLow (s : State) (c : Collector) : (s.withColl c).rstLow = s.rstLow := rfl
@[simp] theorem State.withColl_pending (s : State) (c : Collector) : (s.withColl c).pending = s.pending := rfl

@[simp] theorem State.withLink_streams (s : State) (l : FeedLink) : (s.withLink l).streams = s.streams := rfl
@[simp] theorem State.withLink_ring (s : State) (l : FeedLink) : (s.withLink l).ring = s.ring := rfl
@[simp] theorem State.withLink_plans (s : State) (l : FeedLink) : (s.withLink l).plans = s.plans := rfl
@[simp] theorem State.withLink_bus (s : State) (l : FeedLink) : (s.withLink l).bus = s.bus := rfl
@[simp] theorem State.withLink_coll (s : State) (l : FeedLink) : (s.withLink l).coll = s.coll := rfl
@[simp] theorem State.withLink_link (s : State) (l : FeedLink) : (s.withLink l).link = l := rfl
@[simp] theorem State.withLink_req (s : State) (l : FeedLink) : (s.withLink l).req = s.req := rfl
@[simp] theorem State.withLink_clockRunning (s : State) (l : FeedLink) : (s.withLink l).clockRunning = s.clockRunning := rfl
@[simp] theorem State.withLink_rstLow (s : State) (l : FeedLink) : (s.withLink l).rstLow = s.rstLow := rfl
@[simp] theorem State.withLink_pending (s : State) (l : FeedLink) : (s.withLink l).pending = s.pending := rfl

@[simp] theorem State.withReq_streams (s : State) (u : RequestUnit) : (s.withReq u).streams = s.streams := rfl
@[simp] theorem State.withReq_ring (s : State) (u : RequestUnit) : (s.withReq u).ring = s.ring := rfl
@[simp] theorem State.withReq_plans (s : State) (u : RequestUnit) : (s.withReq u).plans = s.plans := rfl
@[simp] theorem State.withReq_bus (s : State) (u : RequestUnit) : (s.withReq u).bus = s.bus := rfl
@[simp] theorem State.withReq_coll (s : State) (u : RequestUnit) : (s.withReq u).coll = s.coll := rfl
@[simp] theorem State.withReq_link (s : State) (u : RequestUnit) : (s.withReq u).link = s.link := rfl
@[simp] theorem State.withReq_req (s : State) (u : RequestUnit) : (s.withReq u).req = u := rfl
@[simp] theorem State.withReq_clockRunning (s : State) (u : RequestUnit) :
    (s.withReq u).clockRunning = s.clockRunning := rfl
@[simp] theorem State.withReq_rstLow (s : State) (u : RequestUnit) : (s.withReq u).rstLow = s.rstLow := rfl
@[simp] theorem State.withReq_pending (s : State) (u : RequestUnit) : (s.withReq u).pending = s.pending := rfl

@[simp] theorem State.withPending_streams (s : State) (q : List Instr) : (s.withPending q).streams = s.streams := rfl
@[simp] theorem State.withPending_ring (s : State) (q : List Instr) : (s.withPending q).ring = s.ring := rfl
@[simp] theorem State.withPending_plans (s : State) (q : List Instr) : (s.withPending q).plans = s.plans := rfl
@[simp] theorem State.withPending_bus (s : State) (q : List Instr) : (s.withPending q).bus = s.bus := rfl
@[simp] theorem State.withPending_coll (s : State) (q : List Instr) : (s.withPending q).coll = s.coll := rfl
@[simp] theorem State.withPending_link (s : State) (q : List Instr) : (s.withPending q).link = s.link := rfl
@[simp] theorem State.withPending_req (s : State) (q : List Instr) : (s.withPending q).req = s.req := rfl
@[simp] theorem State.withPending_clockRunning (s : State) (q : List Instr) :
    (s.withPending q).clockRunning = s.clockRunning := rfl
@[simp] theorem State.withPending_rstLow (s : State) (q : List Instr) : (s.withPending q).rstLow = s.rstLow := rfl
@[simp] theorem State.withPending_pending (s : State) (q : List Instr) : (s.withPending q).pending = q := rfl

@[simp] theorem State.withStream_streams (s : State) (i : StreamId) (r : StreamRec) :
    (s.withStream i r).streams = s.streams.put i r := rfl
@[simp] theorem State.withStream_ring (s : State) (i : StreamId) (r : StreamRec) :
    (s.withStream i r).ring = s.ring := rfl
@[simp] theorem State.withStream_plans (s : State) (i : StreamId) (r : StreamRec) :
    (s.withStream i r).plans = s.plans := rfl
@[simp] theorem State.withStream_bus (s : State) (i : StreamId) (r : StreamRec) : (s.withStream i r).bus = s.bus := rfl
@[simp] theorem State.withStream_coll (s : State) (i : StreamId) (r : StreamRec) :
    (s.withStream i r).coll = s.coll := rfl
@[simp] theorem State.withStream_link (s : State) (i : StreamId) (r : StreamRec) :
    (s.withStream i r).link = s.link := rfl
@[simp] theorem State.withStream_req (s : State) (i : StreamId) (r : StreamRec) : (s.withStream i r).req = s.req := rfl
@[simp] theorem State.withStream_clockRunning (s : State) (i : StreamId) (r : StreamRec) :
    (s.withStream i r).clockRunning = s.clockRunning := rfl
@[simp] theorem State.withStream_rstLow (s : State) (i : StreamId) (r : StreamRec) :
    (s.withStream i r).rstLow = s.rstLow := rfl
@[simp] theorem State.withStream_pending (s : State) (i : StreamId) (r : StreamRec) :
    (s.withStream i r).pending = s.pending := rfl

@[simp] theorem State.withOpening_streams (s : State) (i : StreamId) (o : Option Opening) :
    (s.withOpening i o).streams = s.streams.put i { s.stream i with opening := o } := rfl
@[simp] theorem State.withOpening_ring (s : State) (i : StreamId) (o : Option Opening) :
    (s.withOpening i o).ring = s.ring := rfl
@[simp] theorem State.withOpening_plans (s : State) (i : StreamId) (o : Option Opening) :
    (s.withOpening i o).plans = s.plans := rfl
@[simp] theorem State.withOpening_bus (s : State) (i : StreamId) (o : Option Opening) :
    (s.withOpening i o).bus = s.bus := rfl
@[simp] theorem State.withOpening_coll (s : State) (i : StreamId) (o : Option Opening) :
    (s.withOpening i o).coll = s.coll := rfl
@[simp] theorem State.withOpening_link (s : State) (i : StreamId) (o : Option Opening) :
    (s.withOpening i o).link = s.link := rfl
@[simp] theorem State.withOpening_req (s : State) (i : StreamId) (o : Option Opening) :
    (s.withOpening i o).req = s.req := rfl
@[simp] theorem State.withOpening_clockRunning (s : State) (i : StreamId) (o : Option Opening) :
    (s.withOpening i o).clockRunning = s.clockRunning := rfl
@[simp] theorem State.withOpening_rstLow (s : State) (i : StreamId) (o : Option Opening) :
    (s.withOpening i o).rstLow = s.rstLow := rfl
@[simp] theorem State.withOpening_pending (s : State) (i : StreamId) (o : Option Opening) :
    (s.withOpening i o).pending = s.pending := rfl

@[simp] theorem State.withCounters_streams (s : State) (i : StreamId) (c : StreamCounters) :
    (s.withCounters i c).streams = s.streams.put i { s.stream i with counters := c } := rfl
@[simp] theorem State.withCounters_ring (s : State) (i : StreamId) (c : StreamCounters) :
    (s.withCounters i c).ring = s.ring := rfl
@[simp] theorem State.withCounters_plans (s : State) (i : StreamId) (c : StreamCounters) :
    (s.withCounters i c).plans = s.plans := rfl
@[simp] theorem State.withCounters_bus (s : State) (i : StreamId) (c : StreamCounters) :
    (s.withCounters i c).bus = s.bus := rfl
@[simp] theorem State.withCounters_coll (s : State) (i : StreamId) (c : StreamCounters) :
    (s.withCounters i c).coll = s.coll := rfl
@[simp] theorem State.withCounters_link (s : State) (i : StreamId) (c : StreamCounters) :
    (s.withCounters i c).link = s.link := rfl
@[simp] theorem State.withCounters_req (s : State) (i : StreamId) (c : StreamCounters) :
    (s.withCounters i c).req = s.req := rfl
@[simp] theorem State.withCounters_clockRunning (s : State) (i : StreamId) (c : StreamCounters) :
    (s.withCounters i c).clockRunning = s.clockRunning := rfl
@[simp] theorem State.withCounters_rstLow (s : State) (i : StreamId) (c : StreamCounters) :
    (s.withCounters i c).rstLow = s.rstLow := rfl
@[simp] theorem State.withCounters_pending (s : State) (i : StreamId) (c : StreamCounters) :
    (s.withCounters i c).pending = s.pending := rfl

@[simp] theorem State.withNotices_streams (s : State) (i : StreamId) (n : StreamNotices) :
    (s.withNotices i n).streams = s.streams := rfl
@[simp] theorem State.withNotices_ring (s : State) (i : StreamId) (n : StreamNotices) :
    (s.withNotices i n).ring = s.ring := rfl
@[simp] theorem State.withNotices_plans (s : State) (i : StreamId) (n : StreamNotices) :
    (s.withNotices i n).plans = s.plans := rfl
@[simp] theorem State.withNotices_bus (s : State) (i : StreamId) (n : StreamNotices) :
    (s.withNotices i n).bus = s.bus := rfl
@[simp] theorem State.withNotices_coll (s : State) (i : StreamId) (n : StreamNotices) :
    (s.withNotices i n).coll = s.coll := rfl
@[simp] theorem State.withNotices_link (s : State) (i : StreamId) (n : StreamNotices) :
    (s.withNotices i n).link = s.link := rfl
@[simp] theorem State.withNotices_req (s : State) (i : StreamId) (n : StreamNotices) :
    (s.withNotices i n).req = { s.req with notices := s.req.notices.put i n } := rfl
@[simp] theorem State.withNotices_clockRunning (s : State) (i : StreamId) (n : StreamNotices) :
    (s.withNotices i n).clockRunning = s.clockRunning := rfl
@[simp] theorem State.withNotices_rstLow (s : State) (i : StreamId) (n : StreamNotices) :
    (s.withNotices i n).rstLow = s.rstLow := rfl
@[simp] theorem State.withNotices_pending (s : State) (i : StreamId) (n : StreamNotices) :
    (s.withNotices i n).pending = s.pending := rfl

@[simp] theorem State.withGlobals_streams (s : State) (g : GlobalCounters) :
    (s.withGlobals g).streams = s.streams := rfl
@[simp] theorem State.withGlobals_ring (s : State) (g : GlobalCounters) : (s.withGlobals g).ring = s.ring := rfl
@[simp] theorem State.withGlobals_plans (s : State) (g : GlobalCounters) : (s.withGlobals g).plans = s.plans := rfl
@[simp] theorem State.withGlobals_bus (s : State) (g : GlobalCounters) : (s.withGlobals g).bus = s.bus := rfl
@[simp] theorem State.withGlobals_coll (s : State) (g : GlobalCounters) : (s.withGlobals g).coll = s.coll := rfl
@[simp] theorem State.withGlobals_link (s : State) (g : GlobalCounters) : (s.withGlobals g).link = s.link := rfl
@[simp] theorem State.withGlobals_req (s : State) (g : GlobalCounters) :
    (s.withGlobals g).req = { s.req with globals := g } := rfl
@[simp] theorem State.withGlobals_clockRunning (s : State) (g : GlobalCounters) :
    (s.withGlobals g).clockRunning = s.clockRunning := rfl
@[simp] theorem State.withGlobals_rstLow (s : State) (g : GlobalCounters) : (s.withGlobals g).rstLow = s.rstLow := rfl
@[simp] theorem State.withGlobals_pending (s : State) (g : GlobalCounters) :
    (s.withGlobals g).pending = s.pending := rfl

/-! ## The events a state takes -/

@[simp] theorem State.live_withStreams (s : State) (t : PerStream StreamRec) : (s.withStreams t).live = s.live := rfl
@[simp] theorem State.live_withRing (s : State) (r : RingStore) : (s.withRing r).live = s.live := rfl
@[simp] theorem State.live_withPlans (s : State) (p : PlanStore) : (s.withPlans p).live = s.live := rfl
@[simp] theorem State.live_withBus (s : State) (b : CycleEngine) : (s.withBus b).live = s.live := rfl
@[simp] theorem State.live_withColl (s : State) (c : Collector) : (s.withColl c).live = s.live := rfl
@[simp] theorem State.live_withLink (s : State) (l : FeedLink) : (s.withLink l).live = s.live := rfl
@[simp] theorem State.live_withReq (s : State) (u : RequestUnit) : (s.withReq u).live = s.live := rfl
@[simp] theorem State.live_withPending (s : State) (q : List Instr) : (s.withPending q).live = s.live := rfl
@[simp] theorem State.live_withStream (s : State) (i : StreamId) (r : StreamRec) : (s.withStream i r).live = s.live := rfl
@[simp] theorem State.live_withOpening (s : State) (i : StreamId) (o : Option Opening) :
    (s.withOpening i o).live = s.live := rfl
@[simp] theorem State.live_withCounters (s : State) (i : StreamId) (c : StreamCounters) :
    (s.withCounters i c).live = s.live := rfl
@[simp] theorem State.live_withNotices (s : State) (i : StreamId) (n : StreamNotices) :
    (s.withNotices i n).live = s.live := rfl
@[simp] theorem State.live_withGlobals (s : State) (g : GlobalCounters) : (s.withGlobals g).live = s.live := rfl

@[simp] theorem State.onlyIf_true (s t : State) : s.onlyIf true t = t := rfl

@[simp] theorem State.onlyIf_false (s t : State) : s.onlyIf false t = s := rfl

theorem State.onlyIf_cases (s t : State) (b : Bool) : (b = true ∧ s.onlyIf b t = t) ∨ (b = false ∧ s.onlyIf b t = s) := by
  cases b <;> simp

theorem State.live_iff (s : State) : s.live = true ↔ s.clockRunning = true ∧ s.rstLow = false := by
  simp [State.live]

/-! ## The records -/

@[simp] theorem State.noticesOf_withStreams (s : State) (t : PerStream StreamRec) (j : StreamId) :
    (s.withStreams t).noticesOf j = s.noticesOf j := rfl
@[simp] theorem State.stream_withRing (s : State) (r : RingStore) (j : StreamId) :
    (s.withRing r).stream j = s.stream j := rfl
@[simp] theorem State.opening_withRing (s : State) (r : RingStore) (j : StreamId) :
    (s.withRing r).opening j = s.opening j := rfl
@[simp] theorem State.counters_withRing (s : State) (r : RingStore) (j : StreamId) :
    (s.withRing r).counters j = s.counters j := rfl
@[simp] theorem State.noticesOf_withRing (s : State) (r : RingStore) (j : StreamId) :
    (s.withRing r).noticesOf j = s.noticesOf j := rfl
@[simp] theorem State.stream_withPlans (s : State) (p : PlanStore) (j : StreamId) :
    (s.withPlans p).stream j = s.stream j := rfl
@[simp] theorem State.opening_withPlans (s : State) (p : PlanStore) (j : StreamId) :
    (s.withPlans p).opening j = s.opening j := rfl
@[simp] theorem State.counters_withPlans (s : State) (p : PlanStore) (j : StreamId) :
    (s.withPlans p).counters j = s.counters j := rfl
@[simp] theorem State.noticesOf_withPlans (s : State) (p : PlanStore) (j : StreamId) :
    (s.withPlans p).noticesOf j = s.noticesOf j := rfl
@[simp] theorem State.stream_withBus (s : State) (b : CycleEngine) (j : StreamId) :
    (s.withBus b).stream j = s.stream j := rfl
@[simp] theorem State.opening_withBus (s : State) (b : CycleEngine) (j : StreamId) :
    (s.withBus b).opening j = s.opening j := rfl
@[simp] theorem State.counters_withBus (s : State) (b : CycleEngine) (j : StreamId) :
    (s.withBus b).counters j = s.counters j := rfl
@[simp] theorem State.noticesOf_withBus (s : State) (b : CycleEngine) (j : StreamId) :
    (s.withBus b).noticesOf j = s.noticesOf j := rfl
@[simp] theorem State.stream_withColl (s : State) (c : Collector) (j : StreamId) :
    (s.withColl c).stream j = s.stream j := rfl
@[simp] theorem State.opening_withColl (s : State) (c : Collector) (j : StreamId) :
    (s.withColl c).opening j = s.opening j := rfl
@[simp] theorem State.counters_withColl (s : State) (c : Collector) (j : StreamId) :
    (s.withColl c).counters j = s.counters j := rfl
@[simp] theorem State.noticesOf_withColl (s : State) (c : Collector) (j : StreamId) :
    (s.withColl c).noticesOf j = s.noticesOf j := rfl
@[simp] theorem State.stream_withLink (s : State) (l : FeedLink) (j : StreamId) :
    (s.withLink l).stream j = s.stream j := rfl
@[simp] theorem State.opening_withLink (s : State) (l : FeedLink) (j : StreamId) :
    (s.withLink l).opening j = s.opening j := rfl
@[simp] theorem State.counters_withLink (s : State) (l : FeedLink) (j : StreamId) :
    (s.withLink l).counters j = s.counters j := rfl
@[simp] theorem State.noticesOf_withLink (s : State) (l : FeedLink) (j : StreamId) :
    (s.withLink l).noticesOf j = s.noticesOf j := rfl
@[simp] theorem State.stream_withReq (s : State) (u : RequestUnit) (j : StreamId) :
    (s.withReq u).stream j = s.stream j := rfl
@[simp] theorem State.opening_withReq (s : State) (u : RequestUnit) (j : StreamId) :
    (s.withReq u).opening j = s.opening j := rfl
@[simp] theorem State.counters_withReq (s : State) (u : RequestUnit) (j : StreamId) :
    (s.withReq u).counters j = s.counters j := rfl
@[simp] theorem State.stream_withPending (s : State) (q : List Instr) (j : StreamId) :
    (s.withPending q).stream j = s.stream j := rfl
@[simp] theorem State.opening_withPending (s : State) (q : List Instr) (j : StreamId) :
    (s.withPending q).opening j = s.opening j := rfl
@[simp] theorem State.counters_withPending (s : State) (q : List Instr) (j : StreamId) :
    (s.withPending q).counters j = s.counters j := rfl
@[simp] theorem State.noticesOf_withPending (s : State) (q : List Instr) (j : StreamId) :
    (s.withPending q).noticesOf j = s.noticesOf j := rfl
@[simp] theorem State.noticesOf_withStream (s : State) (i : StreamId) (r : StreamRec) (j : StreamId) :
    (s.withStream i r).noticesOf j = s.noticesOf j := rfl
@[simp] theorem State.noticesOf_withOpening (s : State) (i : StreamId) (o : Option Opening) (j : StreamId) :
    (s.withOpening i o).noticesOf j = s.noticesOf j := rfl
@[simp] theorem State.noticesOf_withCounters (s : State) (i : StreamId) (c : StreamCounters) (j : StreamId) :
    (s.withCounters i c).noticesOf j = s.noticesOf j := rfl
@[simp] theorem State.stream_withNotices (s : State) (i : StreamId) (n : StreamNotices) (j : StreamId) :
    (s.withNotices i n).stream j = s.stream j := rfl
@[simp] theorem State.opening_withNotices (s : State) (i : StreamId) (n : StreamNotices) (j : StreamId) :
    (s.withNotices i n).opening j = s.opening j := rfl
@[simp] theorem State.counters_withNotices (s : State) (i : StreamId) (n : StreamNotices) (j : StreamId) :
    (s.withNotices i n).counters j = s.counters j := rfl
@[simp] theorem State.stream_withGlobals (s : State) (g : GlobalCounters) (j : StreamId) :
    (s.withGlobals g).stream j = s.stream j := rfl
@[simp] theorem State.opening_withGlobals (s : State) (g : GlobalCounters) (j : StreamId) :
    (s.withGlobals g).opening j = s.opening j := rfl
@[simp] theorem State.counters_withGlobals (s : State) (g : GlobalCounters) (j : StreamId) :
    (s.withGlobals g).counters j = s.counters j := rfl

@[simp] theorem State.stream_withStreams (s : State) (t : PerStream StreamRec) (j : StreamId) :
    (s.withStreams t).stream j = t.at j := rfl

theorem State.stream_withStream (s : State) (i j : StreamId) (r : StreamRec) :
    (s.withStream i r).stream j = if j = i then r else s.stream j := PerStream.at_put ..

@[simp] theorem State.stream_withStream_self (s : State) (i : StreamId) (r : StreamRec) :
    (s.withStream i r).stream i = r := PerStream.at_put_self ..

@[simp] theorem State.stream_withStream_ne (s : State) {i j : StreamId} (r : StreamRec) (h : j ≠ i) :
    (s.withStream i r).stream j = s.stream j := PerStream.at_put_ne _ _ h

@[simp] theorem State.stream_withOpening_self (s : State) (i : StreamId) (o : Option Opening) :
    (s.withOpening i o).stream i = { s.stream i with opening := o } := State.stream_withStream_self ..

@[simp] theorem State.stream_withOpening_ne (s : State) {i j : StreamId} (o : Option Opening) (h : j ≠ i) :
    (s.withOpening i o).stream j = s.stream j := State.stream_withStream_ne _ _ h

@[simp] theorem State.stream_withCounters_self (s : State) (i : StreamId) (c : StreamCounters) :
    (s.withCounters i c).stream i = { s.stream i with counters := c } := State.stream_withStream_self ..

@[simp] theorem State.stream_withCounters_ne (s : State) {i j : StreamId} (c : StreamCounters) (h : j ≠ i) :
    (s.withCounters i c).stream j = s.stream j := State.stream_withStream_ne _ _ h

theorem State.opening_withStream (s : State) (i j : StreamId) (r : StreamRec) :
    (s.withStream i r).opening j = if j = i then r.opening else s.opening j := by
  simp only [State.opening, State.stream_withStream]; split <;> rfl

theorem State.opening_withOpening (s : State) (i j : StreamId) (o : Option Opening) :
    (s.withOpening i o).opening j = if j = i then o else s.opening j := State.opening_withStream ..

@[simp] theorem State.opening_withOpening_self (s : State) (i : StreamId) (o : Option Opening) :
    (s.withOpening i o).opening i = o := by simp [State.opening_withOpening]

@[simp] theorem State.opening_withOpening_ne (s : State) {i j : StreamId} (o : Option Opening) (h : j ≠ i) :
    (s.withOpening i o).opening j = s.opening j := by simp [State.opening_withOpening, h]

@[simp] theorem State.opening_withCounters (s : State) (i j : StreamId) (c : StreamCounters) :
    (s.withCounters i c).opening j = s.opening j := by
  simp only [State.withCounters, State.opening_withStream]
  split
  · next h => rw [h]; rfl
  · rfl

theorem State.counters_withCounters (s : State) (i j : StreamId) (c : StreamCounters) :
    (s.withCounters i c).counters j = if j = i then c else s.counters j := by
  simp only [State.counters, State.withCounters, State.stream_withStream]; split <;> rfl

@[simp] theorem State.counters_withCounters_self (s : State) (i : StreamId) (c : StreamCounters) :
    (s.withCounters i c).counters i = c := by simp [State.counters_withCounters]

@[simp] theorem State.counters_withCounters_ne (s : State) {i j : StreamId} (c : StreamCounters) (h : j ≠ i) :
    (s.withCounters i c).counters j = s.counters j := by simp [State.counters_withCounters, h]

@[simp] theorem State.counters_withOpening (s : State) (i j : StreamId) (o : Option Opening) :
    (s.withOpening i o).counters j = s.counters j := by
  simp only [State.counters, State.withOpening, State.stream_withStream]
  split
  · next h => rw [h]
  · rfl

@[simp] theorem State.generation_withOpening (s : State) (i j : StreamId) (o : Option Opening) :
    ((s.withOpening i o).stream j).generation = (s.stream j).generation := by
  simp only [State.withOpening, State.stream_withStream]
  split
  · next h => rw [h]
  · rfl

@[simp] theorem State.generation_withCounters (s : State) (i j : StreamId) (c : StreamCounters) :
    ((s.withCounters i c).stream j).generation = (s.stream j).generation := by
  simp only [State.withCounters, State.stream_withStream]
  split
  · next h => rw [h]
  · rfl

@[simp] theorem State.noticesOf_withNotices_self (s : State) (i : StreamId) (n : StreamNotices) :
    (s.withNotices i n).noticesOf i = n := PerStream.at_put_self ..

@[simp] theorem State.noticesOf_withNotices_ne (s : State) {i j : StreamId} (n : StreamNotices) (h : j ≠ i) :
    (s.withNotices i n).noticesOf j = s.noticesOf j := PerStream.at_put_ne _ _ h

theorem State.noticesOf_withNotices (s : State) (i j : StreamId) (n : StreamNotices) :
    (s.withNotices i n).noticesOf j = if j = i then n else s.noticesOf j := PerStream.at_put ..

@[simp] theorem State.noticesOf_withReq (s : State) (u : RequestUnit) (j : StreamId) :
    (s.withReq u).noticesOf j = u.notices.at j := rfl

@[simp] theorem State.noticesOf_withGlobals (s : State) (g : GlobalCounters) (j : StreamId) :
    (s.withGlobals g).noticesOf j = s.noticesOf j := rfl

end Sys2Proof.Machine
end

