-- ==== Sys2Proof/Laws/Requests.lean ====
section
/-! SUPPORT. What taking a frame does, and what a reply, a refusal and a deferral leave, once and for every request. -/

namespace Sys2Proof.Machine

/-! ## The take -/

theorem State.canTake.live {s : State} {f : Frame} {rest : List Frame} (h : s.canTake f rest) : s.live = true := by
  simp [State.live, h.1, h.2.1]

theorem State.canTake.eligible {s : State} {f : Frame} {rest : List Frame} (h : s.canTake f rest) : s.eligible f = true := by
  unfold State.eligible
  cases hn : needsReply f with
  | false => simp
  | true => simpa using h.2.2.2.2 hn

/-- The command of the head frame's row takes it. -/
theorem State.canTake.taken {s : State} {f : Frame} {rest : List Frame} {c : Instr} (h : s.canTake f rest)
    (hc : frameCommand f = c) : s.taken c = some f := by
  simp [State.taken, h.2.2.2.1, h.live, h.2.2.1, hc, h.eligible]

/-- A frame that can be taken is handled whole. -/
theorem handleHead_of_canTake {s : State} {f : Frame} {rest : List Frame} {c : Instr} (h : s.canTake f rest)
    (hc : frameCommand f = c) (handle : Frame → State → State) :
    handleHead c handle s = .next (handle f (s.beginHandling f)).endHandling := by
  simp [handleHead, h.taken hc]

/-- A request command either takes nothing and changes nothing, or handles the head frame of its own row. -/
theorem handleHead_cases (c : Instr) (handle : Frame → State → State) (s : State) :
    handleHead c handle s = .next s ∨
      ∃ f rest, s.canTake f rest ∧ frameCommand f = c ∧
        handleHead c handle s = .next (handle f (s.beginHandling f)).endHandling := by
  unfold handleHead
  cases ht : s.taken c with
  | none => exact .inl rfl
  | some f =>
    refine .inr ?_
    unfold State.taken at ht
    cases hb : s.link.rxBuf with
    | nil => simp [hb] at ht
    | cons g rest =>
      simp only [hb] at ht
      split at ht
      · next hg =>
        obtain rfl : g = f := by simpa using ht
        refine ⟨g, rest, ⟨?_, ?_, hg.2.1, hb, ?_⟩, hg.2.2.1, rfl⟩
        · exact (State.live_iff s).1 hg.1 |>.1
        · exact (State.live_iff s).1 hg.1 |>.2
        · intro hn
          have := hg.2.2.2
          simpa [State.eligible, hn] using this
      · exact absurd ht (by simp)

/-- A request command that is not of the head frame's row changes nothing. -/
theorem handleHead_other {s : State} {f : Frame} {rest : List Frame} {c : Instr} (hb : s.link.rxBuf = f :: rest)
    (hc : frameCommand f ≠ c) (handle : Frame → State → State) : handleHead c handle s = .next s := by
  simp [handleHead, State.taken, hb, hc]

/-- A head frame that waits for a reply place is not taken. -/
theorem handleHead_waits {s : State} {f : Frame} {rest : List Frame} (c : Instr) (hb : s.link.rxBuf = f :: rest)
    (hn : needsReply f = true) (h : 16 ≤ s.req.replyQueue.length + s.req.pendingTable.length)
    (handle : Frame → State → State) : handleHead c handle s = .next s := by
  have : s.eligible f = false := by simp [State.eligible, hn]; omega
  simp [handleHead, State.taken, hb, this]

/-! ## The state during and after a handling -/

@[simp] theorem State.beginHandling_streams (s : State) (f : Frame) : (s.beginHandling f).streams = s.streams := rfl
@[simp] theorem State.beginHandling_ring (s : State) (f : Frame) : (s.beginHandling f).ring = s.ring := rfl
@[simp] theorem State.beginHandling_plans (s : State) (f : Frame) : (s.beginHandling f).plans = s.plans := rfl
@[simp] theorem State.beginHandling_bus (s : State) (f : Frame) : (s.beginHandling f).bus = s.bus := rfl
@[simp] theorem State.beginHandling_coll (s : State) (f : Frame) : (s.beginHandling f).coll = s.coll := rfl
@[simp] theorem State.beginHandling_link (s : State) (f : Frame) :
    (s.beginHandling f).link = { s.link with rxBuf := s.link.rxBuf.tail } := rfl
@[simp] theorem State.beginHandling_req (s : State) (f : Frame) :
    (s.beginHandling f).req = { s.req with handling := some f } := rfl
@[simp] theorem State.beginHandling_clockRunning (s : State) (f : Frame) :
    (s.beginHandling f).clockRunning = s.clockRunning := rfl
@[simp] theorem State.beginHandling_rstLow (s : State) (f : Frame) : (s.beginHandling f).rstLow = s.rstLow := rfl
@[simp] theorem State.beginHandling_pending (s : State) (f : Frame) : (s.beginHandling f).pending = s.pending := rfl
@[simp] theorem State.stream_beginHandling (s : State) (f : Frame) (i : StreamId) :
    (s.beginHandling f).stream i = s.stream i := rfl
@[simp] theorem State.opening_beginHandling (s : State) (f : Frame) (i : StreamId) :
    (s.beginHandling f).opening i = s.opening i := rfl
@[simp] theorem State.counters_beginHandling (s : State) (f : Frame) (i : StreamId) :
    (s.beginHandling f).counters i = s.counters i := rfl
@[simp] theorem State.noticesOf_beginHandling (s : State) (f : Frame) (i : StreamId) :
    (s.beginHandling f).noticesOf i = s.noticesOf i := rfl

@[simp] theorem State.endHandling_streams (s : State) : s.endHandling.streams = s.streams := rfl
@[simp] theorem State.endHandling_ring (s : State) : s.endHandling.ring = s.ring := rfl
@[simp] theorem State.endHandling_plans (s : State) : s.endHandling.plans = s.plans := rfl
@[simp] theorem State.endHandling_bus (s : State) : s.endHandling.bus = s.bus := rfl
@[simp] theorem State.endHandling_coll (s : State) : s.endHandling.coll = s.coll := rfl
@[simp] theorem State.endHandling_link (s : State) : s.endHandling.link = s.link := rfl
@[simp] theorem State.endHandling_req (s : State) : s.endHandling.req = { s.req with handling := none } := rfl
@[simp] theorem State.endHandling_clockRunning (s : State) : s.endHandling.clockRunning = s.clockRunning := rfl
@[simp] theorem State.endHandling_rstLow (s : State) : s.endHandling.rstLow = s.rstLow := rfl
@[simp] theorem State.endHandling_pending (s : State) : s.endHandling.pending = s.pending := rfl
@[simp] theorem State.stream_endHandling (s : State) (i : StreamId) : s.endHandling.stream i = s.stream i := rfl
@[simp] theorem State.opening_endHandling (s : State) (i : StreamId) : s.endHandling.opening i = s.opening i := rfl
@[simp] theorem State.counters_endHandling (s : State) (i : StreamId) : s.endHandling.counters i = s.counters i := rfl
@[simp] theorem State.noticesOf_endHandling (s : State) (i : StreamId) : s.endHandling.noticesOf i = s.noticesOf i := rfl

/-! ## Replies and entries -/

@[simp] theorem RequestUnit.queueReply_replyQueue (u : RequestUnit) (r : Reply) :
    (u.queueReply r).replyQueue = u.replyQueue ++ [r] := rfl
@[simp] theorem RequestUnit.queueReply_pendingTable (u : RequestUnit) (r : Reply) :
    (u.queueReply r).pendingTable = u.pendingTable := rfl
@[simp] theorem RequestUnit.queueReply_notices (u : RequestUnit) (r : Reply) : (u.queueReply r).notices = u.notices := rfl
@[simp] theorem RequestUnit.queueReply_link (u : RequestUnit) (r : Reply) : (u.queueReply r).link = u.link := rfl
@[simp] theorem RequestUnit.queueReply_globals (u : RequestUnit) (r : Reply) : (u.queueReply r).globals = u.globals := rfl
@[simp] theorem RequestUnit.queueReply_handling (u : RequestUnit) (r : Reply) : (u.queueReply r).handling = u.handling := rfl

@[simp] theorem RequestUnit.addPending_replyQueue (u : RequestUnit) (e : PendingEntry) :
    (u.addPending e).replyQueue = u.replyQueue := rfl
@[simp] theorem RequestUnit.addPending_pendingTable (u : RequestUnit) (e : PendingEntry) :
    (u.addPending e).pendingTable = u.pendingTable ++ [e] := rfl
@[simp] theorem RequestUnit.addPending_notices (u : RequestUnit) (e : PendingEntry) : (u.addPending e).notices = u.notices := rfl
@[simp] theorem RequestUnit.addPending_link (u : RequestUnit) (e : PendingEntry) : (u.addPending e).link = u.link := rfl
@[simp] theorem RequestUnit.addPending_globals (u : RequestUnit) (e : PendingEntry) : (u.addPending e).globals = u.globals := rfl
@[simp] theorem RequestUnit.addPending_handling (u : RequestUnit) (e : PendingEntry) :
    (u.addPending e).handling = u.handling := rfl

/-- The stream byte of a refusal for its form (R161). -/
@[simp] theorem replyStream_badForm (f : Frame) : replyStream f .badForm = 0xFF := by simp [replyStream]

/-- The answer of an entry: nothing where no entry is meant; else the first one leaves and its reply joins the queue (R149). -/
theorem RequestUnit.answer_eq (u : RequestUnit) (p : PendingEntry → Bool) (reply : PendingEntry → Reply) :
    u.answer p reply = { u with
      pendingTable := u.pendingTable.eraseP p
      replyQueue := u.replyQueue ++ ((u.pendingTable.find? p).map reply).toList } := by
  unfold RequestUnit.answer
  cases h : u.pendingTable.find? p with
  | none =>
    have : u.pendingTable.eraseP p = u.pendingTable :=
      List.eraseP_of_forall_not fun a ha hp => by
        have := List.find?_eq_none.1 h a ha
        exact this hp
    simp [this]
  | some e => simp

/-- An answer leaves the sum of replies and entries as it was (R145 (2)). -/
theorem RequestUnit.answer_sum (u : RequestUnit) (p : PendingEntry → Bool) (reply : PendingEntry → Reply) :
    (u.answer p reply).replyQueue.length + (u.answer p reply).pendingTable.length =
      u.replyQueue.length + u.pendingTable.length := by
  rw [RequestUnit.answer_eq]
  cases h : u.pendingTable.find? p with
  | none =>
    have : u.pendingTable.eraseP p = u.pendingTable :=
      List.eraseP_of_forall_not fun a ha hp => by
        have := List.find?_eq_none.1 h a ha
        exact this hp
    simp [this]
  | some e =>
    have hm := List.mem_of_find?_eq_some h
    have hp := List.find?_some h
    have := List.length_eraseP_of_mem hm hp
    have hpos := List.length_pos_of_mem hm
    simp [this]
    omega

/-! ## The whole handling of a frame that is only answered or deferred -/

theorem State.without_of_beginHandling {s : State} {f : Frame} {rest : List Frame} (h : s.canTake f rest) :
    (s.beginHandling f).endHandling = s.without rest := by
  have h1 := h.2.2.1
  have h2 := h.2.2.2.1
  cases s with
  | mk a b c d e l u x y z =>
    cases u
    cases l
    simp_all [State.beginHandling, State.endHandling, State.without, State.withReq]

/-- A frame answered with a reply alone: the frame gone, the reply queued, nothing else. -/
theorem State.replyTo_endHandling {s : State} {f : Frame} {rest : List Frame} (h : s.canTake f rest) (status : Status)
    (result : ReplyResult) :
    ((s.beginHandling f).replyTo f status result).endHandling = (s.without rest).queued (replyFor f status result) := by
  rw [← State.without_of_beginHandling h]
  rfl

/-- A frame whose answer is deferred, and nothing else. -/
theorem State.defer_endHandling {s : State} {f : Frame} {rest : List Frame} (h : s.canTake f rest) (job : PendingJob) :
    ((s.beginHandling f).defer f job).endHandling = (s.without rest).entered { tag := tagOf f, job := job } := by
  rw [← State.without_of_beginHandling h]
  rfl

end Sys2Proof.Machine
end

