-- ==== Sys2Proof/Laws/Ring.lean ====
section
/-! SUPPORT. What each operation of the Ring Store does: what a read gives after it, and that the list keeps its form. -/

namespace Sys2Proof.Machine

/-! ## The list of entries -/

theorem findEntry_insertEntry_self (k : Nat) (e : Entry) (l : List (Nat × Entry)) :
    findEntry k (insertEntry k e l) = some e := by
  induction l with
  | nil => simp [insertEntry, findEntry]
  | cons x xs ih =>
    obtain ⟨n, y⟩ := x
    simp only [insertEntry]
    split
    · simp [findEntry]
    · split
      · simp [findEntry]
      · next h1 h2 =>
        have h3 : ¬ n = k := fun h => h2 h.symm
        simp [findEntry, h3, ih]

theorem findEntry_insertEntry_ne {k j : Nat} (h : j ≠ k) (e : Entry) (l : List (Nat × Entry)) :
    findEntry j (insertEntry k e l) = findEntry j l := by
  have h' : ¬ k = j := fun x => h x.symm
  induction l with
  | nil => simp [insertEntry, findEntry, h']
  | cons x xs ih =>
    obtain ⟨n, y⟩ := x
    simp only [insertEntry]
    split
    · simp [findEntry, h']
    · split
      · next _ h2 => subst h2; simp [findEntry, h']
      · simp [findEntry, ih]

theorem mem_keys_insertEntry (k j : Nat) (e : Entry) (l : List (Nat × Entry)) :
    j ∈ (insertEntry k e l).map Prod.fst ↔ j = k ∨ j ∈ l.map Prod.fst := by
  induction l with
  | nil => simp [insertEntry]
  | cons x xs ih =>
    obtain ⟨n, y⟩ := x
    simp only [insertEntry]
    split
    · simp
    · split
      · next _ h2 => subst h2; simp
      · simp only [List.map_cons, List.mem_cons, ih]
        tauto

theorem keys_insertEntry_rising (k : Nat) (e : Entry) (l : List (Nat × Entry))
    (h : (l.map Prod.fst).Pairwise (· < ·)) : ((insertEntry k e l).map Prod.fst).Pairwise (· < ·) := by
  induction l with
  | nil => simp [insertEntry]
  | cons x xs ih =>
    obtain ⟨n, y⟩ := x
    simp only [List.map_cons, List.pairwise_cons] at h
    simp only [insertEntry]
    split
    · next h1 =>
      simp only [List.map_cons, List.pairwise_cons, List.mem_cons]
      refine ⟨fun a ha => ?_, h.1, h.2⟩
      rcases ha with rfl | ha
      · exact h1
      · exact Nat.lt_trans h1 (h.1 a ha)
    · split
      · next _ h2 => subst h2; simpa using h
      · next h1 h2 =>
        simp only [List.map_cons, List.pairwise_cons]
        refine ⟨fun a ha => ?_, ih h.2⟩
        rcases (mem_keys_insertEntry k a e xs).1 ha with rfl | ha
        · omega
        · exact h.1 a ha

/-! ## Reads after writes -/

@[simp] theorem RingStore.read_write_self (r : RingStore) (k : Nat) (e : Entry) : (r.write k e).read k = e := by
  simp [RingStore.read, RingStore.write, findEntry_insertEntry_self]

@[simp] theorem RingStore.read_write_ne (r : RingStore) {k j : Nat} (e : Entry) (h : j ≠ k) :
    (r.write k e).read j = r.read j := by
  simp [RingStore.read, RingStore.write, findEntry_insertEntry_ne h]

@[simp] theorem RingStore.write_freeBlocks (r : RingStore) (k : Nat) (e : Entry) : (r.write k e).freeBlocks = r.freeBlocks := rfl
@[simp] theorem RingStore.write_sweepQueue (r : RingStore) (k : Nat) (e : Entry) : (r.write k e).sweepQueue = r.sweepQueue := rfl
@[simp] theorem RingStore.write_engine (r : RingStore) (k : Nat) (e : Entry) : (r.write k e).engine = r.engine := rfl
@[simp] theorem RingStore.write_epoch (r : RingStore) (k : Nat) (e : Entry) : (r.write k e).epoch = r.epoch := rfl

/-- The void operation: held is no at the entry, and nothing else changes (R24 (3)). -/
theorem RingStore.read_void (r : RingStore) (k j : Nat) :
    (r.void k).read j = if j = k then { r.read k with held := false } else r.read j := by
  unfold RingStore.void
  split
  · next h => subst h; simp
  · next h => simp [h]

@[simp] theorem RingStore.void_freeBlocks (r : RingStore) (k : Nat) : (r.void k).freeBlocks = r.freeBlocks := rfl
@[simp] theorem RingStore.void_sweepQueue (r : RingStore) (k : Nat) : (r.void k).sweepQueue = r.sweepQueue := rfl
@[simp] theorem RingStore.void_engine (r : RingStore) (k : Nat) : (r.void k).engine = r.engine := rfl

/-- The place operation says whether the entry was free, and writes exactly then (R24 (1)). -/
theorem RingStore.place_eq (r : RingStore) (k : Nat) (t : Half) (v : Word) :
    r.place k t v = if (r.read k).held then (false, r) else (true, r.write k { value := v, tag := t, held := true }) := rfl

/-- The consume operation hands over the entry and voids it (R24 (2)). -/
theorem RingStore.consume_eq (r : RingStore) (k : Nat) : r.consume k = (r.read k, r.void k) := rfl

theorem RingStore.voidRun_freeBlocks (r : RingStore) (base n : Nat) : (r.voidRun base n).freeBlocks = r.freeBlocks := by
  induction n with
  | zero => rfl
  | succ n ih => simpa [RingStore.voidRun] using ih

theorem RingStore.voidRun_sweepQueue (r : RingStore) (base n : Nat) : (r.voidRun base n).sweepQueue = r.sweepQueue := by
  induction n with
  | zero => rfl
  | succ n ih => simpa [RingStore.voidRun] using ih

theorem RingStore.voidRun_engine (r : RingStore) (base n : Nat) : (r.voidRun base n).engine = r.engine := by
  induction n with
  | zero => rfl
  | succ n ih => simpa [RingStore.voidRun] using ih

/-- A run of voids: held is no in the run, and no other entry changes. -/
theorem RingStore.read_voidRun (r : RingStore) (base n j : Nat) :
    (r.voidRun base n).read j = if base ≤ j ∧ j < base + n then { r.read j with held := false } else r.read j := by
  induction n with
  | zero => simp [RingStore.voidRun]
  | succ n ih =>
    simp only [RingStore.voidRun, RingStore.read_void]
    by_cases h : j = base + n
    · subst h
      simp [ih]
    · rw [if_neg h, ih]
      by_cases h2 : base ≤ j ∧ j < base + n
      · rw [if_pos h2, if_pos ⟨h2.1, by omega⟩]
      · rw [if_neg h2, if_neg (by omega)]

/-- A block voided: its 32 entries are not held, and no other entry changes (R32). -/
theorem RingStore.read_voidBlock (r : RingStore) (b : BlockId) (j : Nat) :
    (r.voidBlock b).read j =
      if b.val * 32 ≤ j ∧ j < b.val * 32 + 32 then { r.read j with held := false } else r.read j :=
  RingStore.read_voidRun ..

@[simp] theorem RingStore.voidBlock_freeBlocks (r : RingStore) (b : BlockId) : (r.voidBlock b).freeBlocks = r.freeBlocks :=
  RingStore.voidRun_freeBlocks ..
@[simp] theorem RingStore.voidBlock_sweepQueue (r : RingStore) (b : BlockId) : (r.voidBlock b).sweepQueue = r.sweepQueue :=
  RingStore.voidRun_sweepQueue ..
@[simp] theorem RingStore.voidBlock_engine (r : RingStore) (b : BlockId) : (r.voidBlock b).engine = r.engine :=
  RingStore.voidRun_engine ..

/-! ## The queue operations leave the entries alone -/

@[simp] theorem RingStore.read_giveBack (r : RingStore) (bs : List BlockId) (k : Nat) : (r.giveBack bs).read k = r.read k := rfl
@[simp] theorem RingStore.read_dropHead (r : RingStore) (n k : Nat) : (r.dropHead n).read k = r.read k := rfl

/-- The engine's next stream: entries and free blocks stay. -/
theorem RingStore.engineFree_spec (r : RingStore) :
    r.engineFree.entries = r.entries ∧ r.engineFree.epoch = r.epoch ∧ r.engineFree.freeBlocks = r.freeBlocks ∧
      r.engineFree.sweepQueue = r.sweepQueue.tail ∧
      r.engineFree.engine = (match r.sweepQueue with | [] => .idle | j :: _ => .busy j 0) := by
  unfold RingStore.engineFree
  cases h : r.sweepQueue <;> simp

theorem RingStore.joinSweep_spec (r : RingStore) (i : StreamId) :
    (r.joinSweep i).entries = r.entries ∧ (r.joinSweep i).epoch = r.epoch ∧ (r.joinSweep i).freeBlocks = r.freeBlocks := by
  unfold RingStore.joinSweep
  cases h : r.engine <;> simp

theorem RingStore.leaveSweep_spec (r : RingStore) (i : StreamId) :
    (r.leaveSweep i).entries = r.entries ∧ (r.leaveSweep i).epoch = r.epoch ∧ (r.leaveSweep i).freeBlocks = r.freeBlocks := by
  unfold RingStore.leaveSweep
  cases h : r.engine with
  | idle => simp
  | busy j v =>
    by_cases hj : j = i
    · have := r.engineFree_spec
      simp [hj, this]
    · simp [hj]

/-- Stores with the same entries and epoch read alike. -/
theorem RingStore.read_congr {r q : RingStore} (h : q.entries = r.entries) (he : q.epoch = r.epoch) (k : Nat) :
    q.read k = r.read k := by
  simp [RingStore.read, h, he]

@[simp] theorem RingStore.read_joinSweep (r : RingStore) (i : StreamId) (k : Nat) : (r.joinSweep i).read k = r.read k :=
  RingStore.read_congr (r.joinSweep_spec i).1 (r.joinSweep_spec i).2.1 k

@[simp] theorem RingStore.read_leaveSweep (r : RingStore) (i : StreamId) (k : Nat) : (r.leaveSweep i).read k = r.read k :=
  RingStore.read_congr (r.leaveSweep_spec i).1 (r.leaveSweep_spec i).2.1 k

@[simp] theorem RingStore.read_engineFree (r : RingStore) (k : Nat) : r.engineFree.read k = r.read k :=
  RingStore.read_congr r.engineFree_spec.1 r.engineFree_spec.2.1 k

/-! ## The canonical form -/

theorem RingStore.wf_congr {r q : RingStore} (h : q.entries = r.entries) (hr : r.wf) : q.wf := by
  unfold RingStore.wf at *
  rw [h]; exact hr

theorem RingStore.wf_write {r : RingStore} {k : Nat} (e : Entry) (hr : r.wf) (hk : k < 8192) : (r.write k e).wf := by
  refine ⟨keys_insertEntry_rising k e r.entries hr.1, fun j hj => ?_⟩
  rcases (mem_keys_insertEntry k j e r.entries).1 hj with rfl | hj
  · exact hk
  · exact hr.2 j hj

theorem RingStore.wf_void {r : RingStore} {k : Nat} (hr : r.wf) (hk : k < 8192) : (r.void k).wf :=
  RingStore.wf_write _ hr hk

theorem RingStore.wf_place {r : RingStore} {k : Nat} (t : Half) (v : Word) (hr : r.wf) (hk : k < 8192) :
    (r.place k t v).2.wf := by
  rw [RingStore.place_eq]
  split
  · exact hr
  · exact RingStore.wf_write _ hr hk

theorem RingStore.wf_consume {r : RingStore} {k : Nat} (hr : r.wf) (hk : k < 8192) : (r.consume k).2.wf :=
  RingStore.wf_void hr hk

theorem RingStore.wf_voidRun {r : RingStore} (base n : Nat) (hr : r.wf) (hk : base + n ≤ 8192) : (r.voidRun base n).wf := by
  induction n with
  | zero => exact hr
  | succ n ih => exact RingStore.wf_void (ih (by omega)) (by omega)

theorem RingStore.wf_voidBlock {r : RingStore} (b : BlockId) (hr : r.wf) : (r.voidBlock b).wf :=
  RingStore.wf_voidRun _ _ hr (by have := b.isLt; omega)

theorem RingStore.wf_joinSweep {r : RingStore} (i : StreamId) (hr : r.wf) : (r.joinSweep i).wf :=
  RingStore.wf_congr (r.joinSweep_spec i).1 hr

theorem RingStore.wf_leaveSweep {r : RingStore} (i : StreamId) (hr : r.wf) : (r.leaveSweep i).wf :=
  RingStore.wf_congr (r.leaveSweep_spec i).1 hr

theorem RingStore.wf_engineFree {r : RingStore} (hr : r.wf) : r.engineFree.wf :=
  RingStore.wf_congr r.engineFree_spec.1 hr

/-- An entry of a ring is an entry of the store (R21, R23). -/
theorem Opening.ringEntry_lt {o : Opening} {x k : Nat} (h : o.ringEntry x = some k) : k < 8192 := by
  unfold Opening.ringEntry at h
  cases hb : o.blockMap[x / 32]? with
  | none => simp [hb] at h
  | some b =>
    simp only [hb, Option.map_some, Option.some.injEq] at h
    have := b.isLt
    omega

theorem Opening.entryNumber_lt {o : Opening} {t : Half} {k : Nat} (h : o.entryNumber t = some k) : k < 8192 :=
  Opening.ringEntry_lt h

/-- The store right after reset has the form: nothing is listed. -/
theorem RingStore.wf_reset : State.reset.ring.wf := by
  simp [RingStore.wf, State.reset]

end Sys2Proof.Machine
end

