-- ==== Sys2Proof/Laws/Closing.lean ====
section
/-! SUPPORT. The close of a stream: everything it does (R12), cited by every command that closes one; and the ends of drains. -/

namespace Sys2Proof.Machine

/-! ## The parts of a close -/

/-- What a close leaves of the Return Collector and the global counters (R122), field by field. -/
theorem State.closeCollection_spec (s : State) (i : StreamId) :
    (s.closeCollection i).coll.stallList = s.coll.stallList.erase i ∧
    (s.closeCollection i).coll.buffers = s.coll.buffers.put i [] ∧
    (s.closeCollection i).coll.tallies = s.coll.tallies.put i 0 ∧
    (s.closeCollection i).coll.queue = s.coll.queue ++
      (if s.coll.buffers.at i ≠ [] ∧ s.coll.queue.length < 12 then
        [{ stream := i, generation := (s.stream i).generation, final := true, dropped := s.coll.tallies.at i,
           records := s.coll.buffers.at i }] else []) ∧
    (s.closeCollection i).req = { s.req with
      globals := { s.req.globals with collectLostAtClose := s.req.globals.collectLostAtClose +
        (if 12 ≤ s.coll.queue.length then BitVec.ofNat 32 (s.coll.buffers.at i).length else 0) } } ∧
    (s.closeCollection i).streams = s.streams ∧ (s.closeCollection i).ring = s.ring ∧
    (s.closeCollection i).plans = s.plans ∧ (s.closeCollection i).bus = s.bus ∧ (s.closeCollection i).link = s.link ∧
    (s.closeCollection i).clockRunning = s.clockRunning ∧ (s.closeCollection i).rstLow = s.rstLow ∧
    (s.closeCollection i).pending = s.pending := by
  unfold State.closeCollection State.closeBuffer
  by_cases hb : s.coll.buffers.at i = []
  · have hp : s.coll.buffers.put i [] = s.coll.buffers := by rw [← hb]; exact PerStream.put_at ..
    simp [Collector.unstall, Collector.setTally, hb, hp]
  · by_cases hq : s.coll.queue.length < 12
    · have h12 : ¬ 12 ≤ s.coll.queue.length := by omega
      simp [Collector.unstall, Collector.form, hb, hq, h12]
    · have h12 : 12 ≤ s.coll.queue.length := by omega
      simp [Collector.unstall, Collector.setTally, Collector.discard, hb, hq, h12, State.withGlobals, GlobalCounters.lose]

/-- The reply of a close to its stream's entry is that of R12 (7). -/
theorem closingReply_eq {e : PendingEntry} {i : StreamId} (h : e.isOf i = true) (drainEnded : Bool) :
    closingReply drainEnded e = e.closeReply i drainEnded := by
  unfold PendingEntry.isOf at h
  unfold closingReply PendingEntry.closeReply
  cases hj : e.job <;> cases drainEnded <;>
    simp_all [PendingJob.stream, PendingEntry.reply, streamByte, PendingJob.kind]

/-- The close of an open stream, whole (R12): State.closesTo says every field. -/
theorem State.closeStream_closesTo {s : State} {i : StreamId} {o : Opening} (h : s.opening i = some o) (drainEnded : Bool) :
    s.closesTo i o drainEnded (s.closeStream i drainEnded) := by
  obtain ⟨h1, h2, h3, h4, h5, h6, h7, h8, h9, h10, h11, h12, h13⟩ := State.closeCollection_spec
    (((s.withOpening i none).withRing ((s.ring.giveBack o.blockMap).leaveSweep i)).withNotices i {}) i
  have hreply : (s.req.pendingTable.find? fun e => decide (e.job.stream = some i)).map (closingReply drainEnded) =
      (s.req.pendingTable.find? (·.isOf i)).map (·.closeReply i drainEnded) := by
    show (s.req.pendingTable.find? (·.isOf i)).map _ = _
    cases hf : s.req.pendingTable.find? (·.isOf i) with
    | none => rfl
    | some e =>
      have hof : e.isOf i = true := List.find?_some (p := fun e : PendingEntry => e.isOf i) hf
      simp only [Option.map_some, closingReply_eq hof]
  have hring := (s.ring.giveBack o.blockMap).leaveSweep_spec i
  have hg : ((s.withOpening i none).stream i).generation = (s.stream i).generation := State.generation_withOpening ..
  unfold State.closeStream State.answerClosing
  simp only [h, State.closesTo, RequestUnit.answer_eq, State.withReq_streams, State.withReq_ring, State.withReq_plans,
    State.withReq_bus, State.withReq_coll, State.withReq_link, State.withReq_req, State.withReq_clockRunning,
    State.withReq_rstLow, State.withReq_pending, h1, h2, h3, h4, h5, h6, h7, h8, h9, h10, h11, h12, h13]
  simp only [State.withNotices_streams, State.withRing_streams, State.withOpening_streams, State.withNotices_ring,
    State.withRing_ring, State.withNotices_coll, State.withRing_coll, State.withOpening_coll, State.withNotices_req,
    State.withRing_req, State.withOpening_req, State.stream_withNotices, State.stream_withRing, hg, hreply]
  refine ⟨trivial, hring.1, hring.2.1, hring.2.2, ?_, ?_, ?_⟩
  · rintro ⟨v, hv⟩
    have hfree := (s.ring.giveBack o.blockMap).engineFree_spec
    have he : (s.ring.giveBack o.blockMap).engine = .busy i v := hv
    simp only [RingStore.leaveSweep, he, if_true]
    exact ⟨hfree.2.2.2.1, hfree.2.2.2.2⟩
  · intro hns
    cases he : s.ring.engine with
    | idle =>
      have he' : (s.ring.giveBack o.blockMap).engine = .idle := he
      simp only [RingStore.leaveSweep, he']
      exact ⟨rfl, trivial⟩
    | busy j v =>
      have he' : (s.ring.giveBack o.blockMap).engine = .busy j v := he
      have hj : j ≠ i := fun e => hns ⟨v, by rw [he, e]⟩
      simp only [RingStore.leaveSweep, he', if_neg hj]
      exact ⟨rfl, trivial⟩
  · refine ⟨?_, ?_, ?_, ?_, ?_, ?_, ?_, ?_, ?_, ?_, ?_, ?_, ?_, ?_, ?_, ?_⟩ <;> trivial

/-- A CLOSED stream is not closed again. -/
theorem State.closeStream_closed {s : State} {i : StreamId} (h : s.opening i = none) (drainEnded : Bool) :
    s.closeStream i drainEnded = s := by
  simp [State.closeStream, h]

/-! ## The ends of drains -/

/-- What holds of a state and is kept by the close of a DRAINING stream holds after the ends of drains. -/
theorem State.endDrains_induct {P : State → Prop} {p : Opening → Bool}
    (hclose : ∀ s i o, P s → s.opening i = some o → o.phase = .draining → p o = true → P (s.closeStream i true)) {s : State}
    (h : P s) : P (s.endDrains p) := by
  unfold State.endDrains
  generalize allStreams = l
  induction l generalizing s with
  | nil => exact h
  | cons i l ih =>
    refine ih ?_
    unfold State.endDrain
    cases ho : s.opening i with
    | none => exact h
    | some o =>
      simp only
      split
      · next hd => exact hclose s i o h ho hd.1 hd.2
      · exact h

/-- The stream is DRAINING and `p` holds of it. -/
def State.endsBy (s : State) (p : Opening → Bool) (i : StreamId) : Bool :=
  match s.opening i with
  | none => false
  | some o => decide (o.phase = .draining) && p o

/-- Entries that `q` holds of are found as before when entries it does not hold of leave. -/
theorem find?_eraseP_of_disjoint {α : Type} {p q : α → Bool} (h : ∀ a, q a = true → p a = false) (l : List α) :
    (l.eraseP p).find? q = l.find? q := by
  induction l with
  | nil => rfl
  | cons a l ih =>
    by_cases hp : p a = true
    · have hq : q a = false := by
        cases hq : q a with
        | false => rfl
        | true => rw [h a hq] at hp; exact absurd hp (by simp)
      simp [hp, hq]
    · simp only [Bool.not_eq_true] at hp
      simp [hp, List.find?_cons, ih]

/-- Elements of two disjoint kinds leave a list in either order. -/
theorem eraseP_comm_of_disjoint {α : Type} {p q : α → Bool} (h : ∀ a, p a = true → q a = false) (l : List α) :
    (l.eraseP p).eraseP q = (l.eraseP q).eraseP p := by
  induction l with
  | nil => rfl
  | cons a l ih =>
    cases hp : p a with
    | true => simp [hp, h a hp]
    | false => cases hq : q a <;> simp [hp, hq, ih]

theorem PendingEntry.isOf_disjoint {i j : StreamId} (h : j ≠ i) (e : PendingEntry) (he : e.isOf j = true) :
    e.isOf i = false := by
  unfold PendingEntry.isOf at *
  simp only [decide_eq_true_eq, decide_eq_false_iff_not] at *
  rw [he]
  exact fun x => h (by simpa using x)

/-- What the ends of the drains of a list of streams leave. -/
theorem State.endDrain_foldl (p : Opening → Bool) (l : List StreamId) :
    ∀ s : State, l.Nodup →
    let t := l.foldl (State.endDrain p) s
    (∀ i, t.opening i = if i ∈ l ∧ s.endsBy p i = true then none else s.opening i) ∧
    (∀ i, (t.stream i).generation = (s.stream i).generation ∧ (t.stream i).counters = (s.stream i).counters) ∧
    t.req.replyQueue = s.req.replyQueue ++
      (l.filter (s.endsBy p)).filterMap (fun i => (s.req.pendingTable.find? (·.isOf i)).map (·.closeReply i true)) ∧
    (∀ q : PendingEntry → Bool, (∀ e i, s.endsBy p i = true → q e = true → e.isOf i = false) →
      t.req.pendingTable.find? q = s.req.pendingTable.find? q) ∧
    t.plans = s.plans ∧ t.bus = s.bus ∧ t.link = s.link ∧ t.req.link = s.req.link ∧ t.req.handling = s.req.handling ∧
    t.clockRunning = s.clockRunning ∧ t.rstLow = s.rstLow ∧ t.pending = s.pending ∧
    ((∀ i ∈ l, s.endsBy p i = false) → t = s) := by
  induction l with
  | nil => intro s _; simp
  | cons i l ih =>
    intro s hl
    have hil : i ∉ l := (List.nodup_cons.1 hl).1
    simp only [List.foldl_cons]
    by_cases he : s.endsBy p i = true
    · cases ho : s.opening i with
      | none => simp [State.endsBy, ho] at he
      | some o =>
        have he' : o.phase = .draining ∧ p o = true := by simpa [State.endsBy, ho] using he
        have hstep : s.endDrain p i = s.closeStream i true := by simp [State.endDrain, ho, he']
        have hc := State.closeStream_closesTo ho true
        rw [hstep]
        generalize hu : s.closeStream i true = u at hc ⊢
        have hopen : ∀ j, u.opening j = if j = i then none else s.opening j := by
          intro j
          show (u.streams.at j).opening = _
          rw [hc.1, PerStream.at_put]
          split <;> rfl
        have hends : ∀ j, j ≠ i → u.endsBy p j = s.endsBy p j := by
          intro j hj
          simp [State.endsBy, hopen, hj]
        have hendi : u.endsBy p i = false := by simp [State.endsBy, hopen]
        have hsub : ∀ j, u.endsBy p j = true → s.endsBy p j = true := by
          intro j hj
          by_cases hji : j = i
          · rw [hji, hendi] at hj; exact absurd hj (by simp)
          · rw [← hends j hji]; exact hj
        have hfilter : l.filter (u.endsBy p) = l.filter (s.endsBy p) :=
          List.filter_congr fun j hj => hends j fun e => hil (e ▸ hj)
        obtain ⟨g1, g2, g3, g4, g5, g6, g7, g8, g9, g10, g11, g12, g13⟩ := ih u (List.nodup_cons.1 hl).2
        obtain ⟨c1, -, -, -, -, -, -, -, -, -, -, -, c13, c14, c15, c16, c17, c18, c19, c20, c21, c22⟩ := hc
        refine ⟨fun j => ?_, fun j => ?_, ?_, fun q hq => ?_, g5.trans c15, g6.trans c16, g7.trans c17, g8.trans c18,
          g9.trans c19, g10.trans c20, g11.trans c21, g12.trans c22, fun hall => ?_⟩
        · rw [g1 j, hopen]
          by_cases hj : j = i
          · subst hj; simp [hil, he]
          · simp [hj, hends j hj]
        · have hj : (u.stream j).generation = (s.stream j).generation ∧ (u.stream j).counters = (s.stream j).counters := by
            show (u.streams.at j).generation = _ ∧ (u.streams.at j).counters = _
            rw [c1, PerStream.at_put]
            split
            · next h => subst h; exact ⟨rfl, rfl⟩
            · exact ⟨rfl, rfl⟩
          exact ⟨(g2 j).1.trans hj.1, (g2 j).2.trans hj.2⟩
        · rw [g3, c14, hfilter, List.filter_cons_of_pos he, List.append_assoc]
          congr 1
          have htail : (l.filter (s.endsBy p)).filterMap
                (fun j => (u.req.pendingTable.find? (·.isOf j)).map (·.closeReply j true)) =
              (l.filter (s.endsBy p)).filterMap
                (fun j => (s.req.pendingTable.find? (·.isOf j)).map (·.closeReply j true)) := by
            refine List.filterMap_congr fun j hj => ?_
            have hji : j ≠ i := fun e => hil (e ▸ (List.mem_filter.1 hj).1)
            rw [c13, find?_eraseP_of_disjoint (fun e he => PendingEntry.isOf_disjoint hji e he)]
          rw [htail]
          cases hf : s.req.pendingTable.find? (·.isOf i) <;> simp [hf]
        · rw [g4 q (fun e j hj => hq e j (hsub j hj)), c13,
            find?_eraseP_of_disjoint (fun e hqe => hq e i he hqe)]
        · exact absurd he (by simp [hall i (by simp)])
    · have hstep : s.endDrain p i = s := by
        unfold State.endDrain
        cases ho : s.opening i with
        | none => rfl
        | some o =>
          have : ¬ (o.phase = .draining ∧ p o = true) := by simpa [State.endsBy, ho] using he
          simp [this]
      rw [hstep]
      obtain ⟨g1, g2, g3, g4, g5, g6, g7, g8, g9, g10, g11, g12, g13⟩ := ih s (List.nodup_cons.1 hl).2
      refine ⟨fun j => ?_, g2, ?_, g4, g5, g6, g7, g8, g9, g10, g11, g12, fun hall => g13 fun j hj => hall j (by simp [hj])⟩
      · rw [g1 j]
        by_cases hj : j = i
        · subst hj; simp [hil, he]
        · simp [hj]
      · rw [g3, List.filter_cons_of_neg (by simpa using he)]

/-- The ends of the drains of a list of streams are the closes of those that `p` holds of, one after the other. -/
theorem State.endDrain_foldl_drainsTo (p : Opening → Bool) (l : List StreamId) (s : State) (hl : l.Nodup) :
    State.drainsTo (l.filter (s.endsBy p)) s (l.foldl (State.endDrain p) s) := by
  induction l generalizing s with
  | nil => exact .none s
  | cons i l ih =>
    have hil : i ∉ l := (List.nodup_cons.1 hl).1
    simp only [List.foldl_cons]
    cases ho : s.opening i with
    | none =>
      have he : s.endsBy p i = false := by simp [State.endsBy, ho]
      have hstep : s.endDrain p i = s := by simp [State.endDrain, ho]
      rw [hstep, List.filter_cons_of_neg (by simp [he])]
      exact ih s (List.nodup_cons.1 hl).2
    | some o =>
      by_cases hd : o.phase = .draining ∧ p o = true
      · have he : s.endsBy p i = true := by simp [State.endsBy, ho, hd]
        have hstep : s.endDrain p i = s.closeStream i true := by simp [State.endDrain, ho, hd]
        have hc := State.closeStream_closesTo ho true
        have hfilter : l.filter ((s.closeStream i true).endsBy p) = l.filter (s.endsBy p) := by
          refine List.filter_congr fun j hj => ?_
          have hji : j ≠ i := fun e => hil (e ▸ hj)
          have : (s.closeStream i true).opening j = s.opening j := by
            show ((s.closeStream i true).streams.at j).opening = _
            rw [hc.1, PerStream.at_put]
            simp [hji]
            rfl
          simp [State.endsBy, this]
        rw [hstep, List.filter_cons_of_pos he, ← hfilter]
        exact .next _ _ _ _ _ o ho hc (ih _ (List.nodup_cons.1 hl).2)
      · have he : s.endsBy p i = false := by simpa [State.endsBy, ho] using hd
        have hstep : s.endDrain p i = s := by simp [State.endDrain, ho, hd]
        rw [hstep, List.filter_cons_of_neg (by simp [he])]
        exact ih s (List.nodup_cons.1 hl).2

/-- The ends of drains are the closes of the streams that `p` holds of, in ascending order (R103, R104). -/
theorem State.endDrains_drainsTo (s : State) (p : Opening → Bool) :
    State.drainsTo (allStreams.filter (s.endsBy p)) s (s.endDrains p) :=
  State.endDrain_foldl_drainsTo p allStreams s (List.nodup_finRange 64)

/-- The closes of a list of streams take the first entry of each out of the pending table. -/
theorem State.drainsTo_pendingTable {l : List StreamId} {s t : State} (h : State.drainsTo l s t) :
    t.req.pendingTable = l.foldl (fun es i => es.eraseP (·.isOf i)) s.req.pendingTable := by
  induction h with
  | none => rfl
  | next s u t i l o _ hc _ ih =>
    obtain ⟨-, -, -, -, -, -, -, -, -, -, -, -, htable, -⟩ := hc
    rw [ih, htable, List.foldl_cons]

/-- Entries of two streams leave the table in either order. -/
theorem eraseP_isOf_comm (es : List PendingEntry) (i j : StreamId) :
    (es.eraseP (·.isOf i)).eraseP (·.isOf j) = (es.eraseP (·.isOf j)).eraseP (·.isOf i) := by
  by_cases hij : i = j
  · rw [hij]
  · exact eraseP_comm_of_disjoint (fun e he => PendingEntry.isOf_disjoint (fun h => hij h) e he) es

/-- The ends of drains, whole (R103, R104): the streams that `p` holds of are closed in ascending order with their replies;
with none, nothing changes. -/
theorem State.endDrains_spec (s : State) (p : Opening → Bool) :
    (∀ i, (s.endDrains p).opening i = if s.endsBy p i = true then none else s.opening i) ∧
    (∀ i, ((s.endDrains p).stream i).generation = (s.stream i).generation ∧
      ((s.endDrains p).stream i).counters = (s.stream i).counters) ∧
    (s.endDrains p).req.replyQueue = s.req.replyQueue ++ s.drainReplies (s.endsBy p) ∧
    (∀ q : PendingEntry → Bool, (∀ e i, s.endsBy p i = true → q e = true → e.isOf i = false) →
      (s.endDrains p).req.pendingTable.find? q = s.req.pendingTable.find? q) ∧
    (s.endDrains p).plans = s.plans ∧ (s.endDrains p).bus = s.bus ∧ (s.endDrains p).link = s.link ∧
    (s.endDrains p).req.link = s.req.link ∧ (s.endDrains p).req.handling = s.req.handling ∧
    (s.endDrains p).clockRunning = s.clockRunning ∧ (s.endDrains p).rstLow = s.rstLow ∧
    (s.endDrains p).pending = s.pending ∧ ((∀ i, s.endsBy p i = false) → s.endDrains p = s) := by
  have hm : ∀ i, i ∈ allStreams := mem_allStreams
  have hn : allStreams.Nodup := List.nodup_finRange 64
  unfold State.endDrains State.drainReplies
  generalize allStreams = l at hm hn
  obtain ⟨g1, g2, g3, g4, g5, g6, g7, g8, g9, g10, g11, g12, g13⟩ := State.endDrain_foldl p l s hn
  refine ⟨fun i => ?_, g2, g3, g4, g5, g6, g7, g8, g9, g10, g11, g12, fun h => g13 fun i _ => h i⟩
  have h := g1 i
  simp only [hm, true_and] at h
  exact h

end Sys2Proof.Machine
end

