-- ==== Sys2Proof/Laws/Collection.lean ====
section
/-! SUPPORT. What a record handed to the Return Collector, and a TUNE of the batch, do, whole (R112, R113, R119 to R121). -/

namespace Sys2Proof.Machine

/-- The report of a stream's whole buffer (R114). -/
def Collector.reportOf (c : Collector) (i : StreamId) (generation : Byte) (final : Bool) : Report where
  stream := i
  generation := generation
  final := final
  dropped := c.tallies.at i
  records := c.buffers.at i

/-- A report formed, field by field (R114). -/
theorem Collector.form_eq (c : Collector) (i : StreamId) (g : Byte) (final : Bool) :
    c.form i g final = { buffers := c.buffers.put i [], tallies := c.tallies.put i 0
                         queue := c.queue ++ [c.reportOf i g final], stallList := c.stallList } := rfl

/-- With collection off a record is not kept (R112 (1)). -/
theorem State.handRecord_off (s : State) (i : StreamId) (r : ReturnRecord) : s.handRecord i 0 r = s := rfl

/-- A stalled stream's record is dropped (R112 (3)). -/
theorem State.handRecord_stalled {s : State} {i : StreamId} {batch : Nat} (hb : batch ≠ 0) (hs : i ∈ s.coll.stallList)
    (r : ReturnRecord) :
    s.handRecord i batch r = (s.withCounters i { s.counters i with collectDropped := (s.counters i).collectDropped + 1 }).withColl
      { s.coll with tallies := s.coll.tallies.put i (min (s.coll.tallies.at i + 1) 65535) } := by
  simp only [State.handRecord, if_neg hb, if_pos hs]
  rfl

/-- A record that leaves the buffer short of the batch is kept (R112 (2)). -/
theorem State.handRecord_kept {s : State} {i : StreamId} {batch : Nat} (hb : batch ≠ 0) (hs : i ∉ s.coll.stallList)
    (r : ReturnRecord) (hl : (s.coll.buffers.at i ++ [r]).length < batch) :
    s.handRecord i batch r = s.withColl { s.coll with buffers := s.coll.buffers.put i (s.coll.buffers.at i ++ [r]) } := by
  have hn : ¬ batch ≤ ((s.coll.append i r).buffers.at i).length := by
    simp only [Collector.append, PerStream.at_put_self]
    omega
  simp only [State.handRecord, if_neg hb, if_neg hs, State.keepRecord, if_neg hn]
  rfl

/-- A record that fills the buffer while the report queue has room forms a report (R113 (1)). -/
theorem State.handRecord_forms {s : State} {i : StreamId} {batch : Nat} (hb : batch ≠ 0) (hs : i ∉ s.coll.stallList)
    (r : ReturnRecord) (hl : batch ≤ (s.coll.buffers.at i ++ [r]).length) (hq : s.coll.queue.length < 12) :
    s.handRecord i batch r = s.withColl
      { s.coll with
        buffers := s.coll.buffers.put i [], tallies := s.coll.tallies.put i 0
        queue := s.coll.queue ++ [{ stream := i, generation := (s.stream i).generation, final := false
                                    dropped := s.coll.tallies.at i, records := s.coll.buffers.at i ++ [r] }] } := by
  simp only [State.handRecord, if_neg hb, if_neg hs, State.keepRecord, Collector.fillUp, Collector.form, Collector.append,
    PerStream.at_put_self, PerStream.put_put, if_pos hl, if_pos hq]

/-- A record that fills the buffer while the report queue is full stalls the stream (R113 (2)). -/
theorem State.handRecord_stalls {s : State} {i : StreamId} {batch : Nat} (hb : batch ≠ 0) (hs : i ∉ s.coll.stallList)
    (r : ReturnRecord) (hl : batch ≤ (s.coll.buffers.at i ++ [r]).length) (hq : 12 ≤ s.coll.queue.length) :
    s.handRecord i batch r = s.withColl
      { s.coll with buffers := s.coll.buffers.put i (s.coll.buffers.at i ++ [r]), stallList := s.coll.stallList ++ [i] } := by
  have hn : batch ≤ ((s.coll.append i r).buffers.at i).length := by
    simp only [Collector.append, PerStream.at_put_self]
    omega
  have hq' : ¬ (s.coll.append i r).queue.length < 12 := by
    show ¬ s.coll.queue.length < 12
    omega
  simp only [State.handRecord, if_neg hb, if_neg hs, State.keepRecord, if_pos hn, Collector.fillUp, if_neg hq']
  rfl

/-- Whatever is handed on, only the Return Collector and the stream's counters change. -/
theorem State.handRecord_frame (s : State) (i : StreamId) (batch : Nat) (r : ReturnRecord) :
    ∃ c d, s.handRecord i batch r = (s.withCounters i c).withColl d ∧
      c = { s.counters i with collectDropped := (s.counters i).collectDropped +
        (if batch ≠ 0 ∧ i ∈ s.coll.stallList then 1 else 0) } := by
  have hself : s.withCounters i (s.counters i) = s := by
    show { s with streams := s.streams.put i (s.streams.at i) } = s
    rw [PerStream.put_at]
  by_cases hb : batch = 0
  · refine ⟨s.counters i, s.coll, ?_, by simp [hb]⟩
    rw [hb, State.handRecord_off, hself]
    rfl
  · by_cases hs : i ∈ s.coll.stallList
    · exact ⟨_, _, State.handRecord_stalled hb hs r, by simp [hb, hs]⟩
    · refine ⟨s.counters i, (s.handRecord i batch r).coll, ?_, by simp [hs]⟩
      rw [hself]
      simp only [State.handRecord, if_neg hb, if_neg hs, State.keepRecord]
      split <;> rfl

/-- Whatever a TUNE does to the batch, only the Return Collector and the stream's collect dropped change (R119 to R121). -/
theorem State.retuneBatch_frame (s : State) (i : StreamId) (old new : Nat) :
    ∃ n d, s.retuneBatch i old new =
      (s.withCounters i { s.counters i with collectDropped := n }).withColl d := by
  have hself : s.withCounters i { s.counters i with collectDropped := (s.counters i).collectDropped } = s := by
    show { s with streams := s.streams.put i (s.streams.at i) } = s
    rw [PerStream.put_at]
  unfold State.retuneBatch
  split
  · exact ⟨_, s.coll, by rw [hself]; rfl⟩
  · split
    · unfold State.turnOff
      split
      · exact ⟨_, _, by rw [hself]⟩
      · split
        · exact ⟨(s.counters i).collectDropped, _, by rw [hself]; rfl⟩
        · exact ⟨_, _, rfl⟩
    · split
      · split
        · exact ⟨(s.counters i).collectDropped, _, by rw [hself]⟩
        · exact ⟨(s.counters i).collectDropped, s.coll, by rw [hself]; rfl⟩
      · split
        · exact ⟨(s.counters i).collectDropped, s.coll, by rw [hself]; rfl⟩
        · split
          · exact ⟨(s.counters i).collectDropped, _, by rw [hself]⟩
          · exact ⟨(s.counters i).collectDropped, s.coll, by rw [hself]; rfl⟩

end Sys2Proof.Machine
end

