-- ==== Sys2Proof/Laws/Line.lean ====
section
/-! SUPPORT. The lines: a byte sent is the byte taken, bit edges, the run of frames sent, BDE and the end of a bus frame, field
by field. -/

namespace Sys2Proof.Machine

/-! ## Bytes on the line -/

@[simp] theorem dataBits_length (b : Byte) : (dataBits b).length = 8 := rfl

@[simp] theorem lineBits_length (b : Byte) : (lineBits b).length = 10 := rfl

/-- A run of `n` bytes occupies `10 n` bit times (R125). -/
theorem runBits_length (bs : List Byte) : (runBits bs).length = 10 * bs.length := by
  induction bs with
  | nil => rfl
  | cons b bs ih =>
    have : runBits (b :: bs) = lineBits b ++ runBits bs := rfl
    simp only [this, List.length_append, ih, lineBits_length, List.length_cons]
    omega

/-- The sampled data bits give the byte. -/
theorem byteOf_dataBits : ∀ b : Byte, byteOf (bitsValue (dataBits b)) = b := by decide +kernel

/-- An idle line brings no byte. -/
@[simp] theorem LineReceiver.take_stop (rest : List Bool) :
    LineReceiver.waiting.take (stopLevel :: rest) = LineReceiver.waiting.take rest := rfl

/-- A start bit and 8 data bits are taken as a byte when the stop bit time has passed, whatever its level (R125). -/
theorem LineReceiver.take_byte (b : Byte) (stop : Bool) (rest : List Bool) :
    LineReceiver.waiting.take ((!stopLevel) :: (dataBits b ++ stop :: rest)) = b :: LineReceiver.waiting.take rest :=
  congrArg (· :: LineReceiver.waiting.take rest) (byteOf_dataBits b)

/-- A run of bytes sent is the run taken (R125). -/
theorem LineReceiver.take_runBits (bs : List Byte) (rest : List Bool) :
    LineReceiver.waiting.take (runBits bs ++ rest) = bs ++ LineReceiver.waiting.take rest := by
  induction bs with
  | nil => rfl
  | cons b bs ih =>
    have : runBits (b :: bs) ++ rest = (!stopLevel) :: (dataBits b ++ stopLevel :: (runBits bs ++ rest)) := by
      simp [runBits, lineBits]
    rw [this, LineReceiver.take_byte, ih, List.cons_append]

/-! ## Bit edges -/

theorem LinkRate.mbits_pos (r : LinkRate) : 0 < r.mbits := by cases r <;> decide

/-- An edge is the first CLK period at or after its exact time 50 n / R (R125). -/
theorem LinkRate.edge_spec (r : LinkRate) (n : Nat) :
    50 * n ≤ r.mbits * r.edge n ∧ r.mbits * r.edge n < 50 * n + r.mbits := by
  cases r <;> simp only [LinkRate.edge, LinkRate.mbits] <;> omega

/-- A CLK period lies in bit time `n` exactly when its edge has come and the next one has not. -/
theorem LinkRate.bitAt_eq_iff (r : LinkRate) (c n : Nat) : r.bitAt c = n ↔ r.edge n ≤ c ∧ c < r.edge (n + 1) := by
  cases r <;> simp only [LinkRate.bitAt, LinkRate.edge, LinkRate.mbits] <;> omega

/-- The start edge of bit time `n` lies in it. -/
@[simp] theorem LinkRate.bitAt_edge (r : LinkRate) (n : Nat) : r.bitAt (r.edge n) = n := by
  rw [LinkRate.bitAt_eq_iff]
  cases r <;> simp only [LinkRate.edge, LinkRate.mbits] <;> omega

/-! ## The run of frames sent -/

/-- A stream has a pending notice exactly when one of its flags is set. -/
theorem StreamNotices.firstPending_isSome (n : StreamNotices) :
    n.firstPending.isSome = true ↔ n.state.flag = true ∨ n.discard.flag = true ∨ n.silent.flag = true := by
  unfold StreamNotices.firstPending
  cases n.state.flag <;> cases n.discard.flag <;> cases n.silent.flag <;> simp

/-- The sources of R136, one by one. -/
theorem State.sourceHolds_iff (s : State) :
    s.sourceHolds = true ↔ s.req.replyQueue ≠ [] ∨ s.req.link.flag = true ∨ s.coll.queue ≠ [] ∨
      ∃ i, (s.noticesOf i).state.flag = true ∨ (s.noticesOf i).discard.flag = true ∨ (s.noticesOf i).silent.flag = true := by
  simp only [State.sourceHolds, Bool.or_eq_true, List.any_eq_true, StreamNotices.firstPending_isSome, Bool.not_eq_true',
    List.isEmpty_eq_false_iff, allStreams, List.mem_finRange, true_and]
  generalize (∃ i, (s.noticesOf i).state.flag = true ∨ (s.noticesOf i).discard.flag = true ∨
    (s.noticesOf i).silent.flag = true) = waits
  tauto

/-- A pick has a choice exactly when a source holds a frame (R136, R137). -/
theorem State.pickChoice_isSome (s : State) : s.pickChoice.isSome = s.sourceHolds := by
  have hround : s.noticeChoice.isSome = allStreams.any fun i => (s.noticesOf i).firstPending.isSome := by
    rw [Bool.eq_iff_iff, State.noticeChoice, List.findSome?_isSome_iff, List.any_eq_true]
    simp only [noticeRound, List.mem_map, State.pendingNotice, Option.isSome_map, allStreams, List.mem_finRange, true_and]
    constructor
    · rintro ⟨_, ⟨_, rfl⟩, h⟩
      exact ⟨_, h⟩
    · rintro ⟨i, h⟩
      exact ⟨i, ⟨i - (s.link.lastNotice + 1), add_sub_cancel _ _⟩, h⟩
  unfold State.pickChoice State.sourceHolds
  rw [← hround]
  cases s.req.replyQueue <;> cases s.coll.queue <;> cases s.req.link.flag <;> cases s.noticeChoice <;>
    simp <;> split <;> rfl

/-! ## Fields of two and four bytes -/

/-- The number that two words give when joined. -/
theorem toNat_joined (m n : Nat) (x : BitVec m) (y : BitVec n) : (x ++ y).toNat = x.toNat * 2 ^ n + y.toNat := by
  rw [BitVec.toNat_append, ← Nat.shiftLeft_add_eq_or_of_lt y.isLt, Nat.shiftLeft_eq]

/-- A 16-bit field joined from two bytes is sent as them, the high one first (spec 10). -/
theorem bytes16_append (h l : Byte) : bytes16 (h ++ l) = [h, l] := by
  have e : BitVec.toNat (h ++ l : BitVec (8 + 8)) = h.toNat * 2 ^ 8 + l.toNat := toNat_joined ..
  simp only [bytes16, List.cons.injEq, and_true]
  have := h.isLt; have := l.isLt
  constructor <;> apply BitVec.eq_of_toNat_eq <;> rw [BitVec.extractLsb'_toNat, Nat.shiftRight_eq_div_pow] <;>
    (refine Eq.trans (congrArg (fun n => n / _ % _) e) ?_) <;> omega

/-- A 32-bit field joined from four bytes is sent as them, the highest first (spec 10). -/
theorem bytes32_append (b3 b2 b1 b0 : Byte) : bytes32 (b3 ++ b2 ++ b1 ++ b0) = [b3, b2, b1, b0] := by
  have e : BitVec.toNat (b3 ++ b2 ++ b1 ++ b0 : BitVec (8 + 8 + 8 + 8)) =
      ((b3.toNat * 2 ^ 8 + b2.toNat) * 2 ^ 8 + b1.toNat) * 2 ^ 8 + b0.toNat := by
    rw [toNat_joined, toNat_joined, toNat_joined]
  simp only [bytes32, List.cons.injEq, and_true]
  have := b3.isLt; have := b2.isLt; have := b1.isLt; have := b0.isLt
  refine ⟨?_, ?_, ?_, ?_⟩ <;> apply BitVec.eq_of_toNat_eq <;> rw [BitVec.extractLsb'_toNat, Nat.shiftRight_eq_div_pow] <;>
    (refine Eq.trans (congrArg (fun n => n / _ % _) e) ?_) <;> omega

/-! ## The driver enable and the end of a bus frame -/

@[simp] theorem CycleEngine.frameGone_state (b : CycleEngine) : b.frameGone.state = b.state := rfl
@[simp] theorem CycleEngine.frameGone_period (b : CycleEngine) : b.frameGone.period = b.period := rfl
@[simp] theorem CycleEngine.frameGone_cycleTimer (b : CycleEngine) : b.frameGone.cycleTimer = b.cycleTimer := rfl
@[simp] theorem CycleEngine.frameGone_cycleNumber (b : CycleEngine) : b.frameGone.cycleNumber = b.cycleNumber := rfl
@[simp] theorem CycleEngine.frameGone_inProgress (b : CycleEngine) : b.frameGone.inProgress = b.inProgress := rfl
@[simp] theorem CycleEngine.frameGone_slotCount (b : CycleEngine) : b.frameGone.slotCount = b.slotCount := rfl
@[simp] theorem CycleEngine.frameGone_slotInFlight (b : CycleEngine) : b.frameGone.slotInFlight = b.slotInFlight := rfl
@[simp] theorem CycleEngine.frameGone_nextSlot (b : CycleEngine) : b.frameGone.nextSlot = b.nextSlot := rfl
@[simp] theorem CycleEngine.frameGone_firstCycle (b : CycleEngine) : b.frameGone.firstCycle = b.firstCycle := rfl
@[simp] theorem CycleEngine.frameGone_busTime (b : CycleEngine) : b.frameGone.busTime = b.busTime := rfl
@[simp] theorem CycleEngine.frameGone_busTx (b : CycleEngine) : b.frameGone.busTx = none := rfl

/-- In service the frame being driven goes out, and nothing else changes. -/
theorem State.passTime_of_inService {s : State} (h : s.inService) : s.passTime = s.withBus s.bus.frameGone := by
  simp [State.passTime, State.onlyIf, State.live, h.1, h.2]

/-- Out of service no time passes. -/
theorem State.passTime_of_not_inService {s : State} (h : ¬ s.inService) : s.passTime = s := by
  unfold State.inService at h
  cases hc : s.clockRunning <;> cases hr : s.rstLow <;> simp_all [State.passTime, State.onlyIf, State.live]

/-- Time changes at most the frame on the bus. -/
theorem State.passTime_cases (s : State) : s.passTime = s ∨ s.passTime = s.withBus s.bus.frameGone := by
  by_cases h : s.inService
  · exact .inr (State.passTime_of_inService h)
  · exact .inl (State.passTime_of_not_inService h)

/-- BDE is released exactly when no frame goes out, the bus is STOPPED or RST is low (R165). -/
theorem State.bde_eq_false_iff (s : State) : s.bde = false ↔ s.bus.busTx = none ∨ s.bus.state = .stopped ∨ s.rstLow = true := by
  unfold State.bde
  cases s.bus.busTx <;> cases s.bus.state <;> cases s.rstLow <;> simp

end Sys2Proof.Machine
end

