-- ==== Sys2Proof/Laws/Notices.lean ====
section
/-! SUPPORT. What a raised notice and the changes of phase that raise one do, whole (R16, R49, R94, R155). -/

namespace Sys2Proof.Machine

theorem NoticeCell.raise_eq (c : NoticeCell) (n : Nat) : c.raise n = c.raisedIf true n := rfl

@[simp] theorem NoticeCell.raisedIf_false (c : NoticeCell) (n : Nat) : c.raisedIf false n = c := rfl

@[simp] theorem StreamNotices.cell_setCell (n : StreamNotices) (k : NoticeKind) (c : NoticeCell) :
    (n.setCell k c).cell k = c := by cases k <;> rfl

@[simp] theorem StreamNotices.setCell_cell (n : StreamNotices) (k : NoticeKind) : n.setCell k (n.cell k) = n := by
  cases k <;> rfl

@[simp] theorem State.withNotices_noticesOf (s : State) (i : StreamId) : s.withNotices i (s.noticesOf i) = s := by
  show { s with req := { s.req with notices := s.req.notices.put i (s.req.notices.at i) } } = s
  rw [PerStream.put_at]

/-- A raise for an open stream, whole (R155): its own cell rises if the mask has the kind, and nothing else changes. -/
theorem State.raiseNotice_eq {s : State} {i : StreamId} {o : Opening} (h : s.opening i = some o) (k : NoticeKind) (n : Nat) :
    s.raiseNotice i k n =
      s.withNotices i ((s.noticesOf i).setCell k (((s.noticesOf i).cell k).raisedIf (o.mask.has k) n)) := by
  unfold State.raiseNotice
  cases hm : o.mask.has k <;> simp [h, hm, NoticeCell.raise_eq]

/-- A raise for a CLOSED stream does nothing. -/
theorem State.raiseNotice_closed {s : State} {i : StreamId} (h : s.opening i = none) (k : NoticeKind) (n : Nat) :
    s.raiseNotice i k n = s := by
  simp [State.raiseNotice, h]

/-- The start of playing, whole (R16 (1), R49). -/
theorem State.startPlaying_eq (s : State) (i : StreamId) (o : Opening) :
    s.startPlaying i o = (s.withOpening i (some { o with phase := .playing })).withNotices i
      { s.noticesOf i with state := (s.noticesOf i).state.raisedIf o.mask.state 1 } := by
  unfold State.startPlaying
  rw [State.raiseNotice_eq (o := { o with phase := .playing }) (by simp)]
  rfl

/-- The starving of a stream, whole (R16 (2), R94). -/
theorem State.starve_eq (s : State) (i : StreamId) (o : Opening) :
    s.starve i o = ((s.withOpening i (some { o with phase := .starved })).withCounters i
        { s.counters i with starveEvents := (s.counters i).starveEvents + 1 }).withNotices i
      { s.noticesOf i with state := (s.noticesOf i).state.raisedIf o.mask.state 1 } := by
  unfold State.starve
  rw [State.raiseNotice_eq (o := { o with phase := .starved }) (by simp)]
  rfl

end Sys2Proof.Machine
end

