-- ==== Sys2Proof/Laws/Swaps.lean ====
section
/-! SUPPORT. What a swap (R66 to R68) and the stop of the bus (R85) do, whole. -/

namespace Sys2Proof.Machine

@[simp] theorem State.stream_recount (s : State) (p : Plan) (i : StreamId) :
    (s.recount p).stream i = (s.stream i).recount (slotsNaming p i) := PerStream.at_tabulate ..

theorem State.opening_recount (s : State) (p : Plan) (i : StreamId) :
    (s.recount p).opening i = (s.opening i).map (·.recounted p i) := by
  simp only [State.opening, State.stream_recount]; rfl

/-- The replies of the drains that end are read from the pending reply table alone. -/
theorem State.drainReplies_congr {s t : State} (h : t.req.pendingTable = s.req.pendingTable) (p : StreamId → Bool) :
    t.drainReplies p = s.drainReplies p := by
  unfold State.drainReplies
  rw [h]

@[simp] theorem State.recount_ring (s : State) (p : Plan) : (s.recount p).ring = s.ring := State.withStreams_ring ..
@[simp] theorem State.recount_plans (s : State) (p : Plan) : (s.recount p).plans = s.plans := State.withStreams_plans ..
@[simp] theorem State.recount_bus (s : State) (p : Plan) : (s.recount p).bus = s.bus := State.withStreams_bus ..
@[simp] theorem State.recount_coll (s : State) (p : Plan) : (s.recount p).coll = s.coll := State.withStreams_coll ..
@[simp] theorem State.recount_link (s : State) (p : Plan) : (s.recount p).link = s.link := State.withStreams_link ..
@[simp] theorem State.recount_req (s : State) (p : Plan) : (s.recount p).req = s.req := State.withStreams_req ..
@[simp] theorem State.recount_clockRunning (s : State) (p : Plan) : (s.recount p).clockRunning = s.clockRunning := State.withStreams_clockRunning ..
@[simp] theorem State.recount_rstLow (s : State) (p : Plan) : (s.recount p).rstLow = s.rstLow := State.withStreams_rstLow ..
@[simp] theorem State.recount_pending (s : State) (p : Plan) : (s.recount p).pending = s.pending := State.withStreams_pending ..

/-- The drains that end at a swap are those it leaves with no active slots (R68 (4)). -/
theorem State.endsBy_recount (s : State) :
    ((s.withPlans { s.plans with active := s.plans.staged, staged := [] }).recount s.plans.staged).endsBy
      (fun o => decide (o.activeSlots = 0)) = s.losesSlots := by
  funext i
  unfold State.endsBy State.losesSlots State.isDraining
  rw [State.opening_recount, State.opening_withPlans]
  cases ho : s.opening i with
  | none => rfl
  | some o => simp [Opening.recounted]

/-- A swap's drains are closed one after the other (R103). -/
theorem State.applySwap_drainsTo (s : State) :
    State.drainsTo (allStreams.filter s.losesSlots)
      ((s.withPlans { s.plans with active := s.plans.staged, staged := [] }).recount s.plans.staged) s.applySwap := by
  have h := State.endDrains_drainsTo ((s.withPlans { s.plans with active := s.plans.staged, staged := [] }).recount s.plans.staged)
    (fun o => decide (o.activeSlots = 0))
  rw [State.endsBy_recount] at h
  unfold State.applySwap
  exact h

/-- The pending table after a swap's drains. -/
theorem State.applySwap_pendingTable (s : State) : s.applySwap.req.pendingTable = s.entriesLeft s.losesSlots := by
  rw [State.drainsTo_pendingTable s.applySwap_drainsTo, State.recount_req, State.withPlans_req]
  rfl

/-- A swap, whole (R68): the plans, the recount, the drains it ends with their replies. -/
theorem State.applySwap_spec (s : State) :
    s.applySwap.plans = { s.plans with active := s.plans.staged, staged := [] } ∧
    (∀ i, s.applySwap.opening i = if s.losesSlots i = true then none else (s.opening i).map (·.recounted s.plans.staged i)) ∧
    (∀ i, (s.applySwap.stream i).generation = (s.stream i).generation ∧
      (s.applySwap.stream i).counters = (s.stream i).counters) ∧
    s.applySwap.req.replyQueue = s.req.replyQueue ++ s.drainReplies s.losesSlots ∧
    (∀ q : PendingEntry → Bool, (∀ e i, s.losesSlots i = true → q e = true → e.isOf i = false) →
      s.applySwap.req.pendingTable.find? q = s.req.pendingTable.find? q) ∧
    s.applySwap.bus = s.bus ∧ s.applySwap.link = s.link ∧ s.applySwap.req.link = s.req.link ∧
    s.applySwap.req.handling = s.req.handling ∧ s.applySwap.clockRunning = s.clockRunning ∧
    s.applySwap.rstLow = s.rstLow ∧ s.applySwap.pending = s.pending ∧
    ((∀ i, s.losesSlots i = false) →
      s.applySwap = (s.withPlans { s.plans with active := s.plans.staged, staged := [] }).recount s.plans.staged) := by
  have hspec := State.endDrains_spec
    ((s.withPlans { s.plans with active := s.plans.staged, staged := [] }).recount s.plans.staged)
    (fun o => decide (o.activeSlots = 0))
  rw [State.endsBy_recount] at hspec
  unfold State.applySwap
  generalize State.endDrains ((s.withPlans { s.plans with active := s.plans.staged, staged := [] }).recount s.plans.staged)
    (fun o => decide (o.activeSlots = 0)) = t at hspec ⊢
  obtain ⟨g1, g2, g3, g4, g5, g6, g7, g8, g9, g10, g11, g12, g13⟩ := hspec
  rw [State.drainReplies_congr (s := s) (by rw [State.recount_req, State.withPlans_req]), State.recount_req,
    State.withPlans_req] at g3
  simp only [State.recount_req, State.withPlans_req, State.recount_bus, State.withPlans_bus, State.recount_link,
    State.withPlans_link, State.recount_clockRunning, State.withPlans_clockRunning, State.recount_rstLow,
    State.withPlans_rstLow, State.recount_pending, State.withPlans_pending, State.recount_plans,
    State.withPlans_plans] at g4 g5 g6 g7 g8 g9 g10 g11 g12
  refine ⟨g5, fun i => ?_, fun i => ?_, g3, g4, g6, g7, g8, g9, g10, g11, g12, g13⟩
  · rw [g1 i, State.opening_recount, State.opening_withPlans]
  · have := g2 i
    rw [State.stream_recount, State.stream_withPlans] at this
    exact this

/-- The entry of a pending swap is of no stream. -/
theorem isOf_false_of_swap (e : PendingEntry) (i : StreamId) (h : e.isSwap = true) : e.isOf i = false := by
  have h : e.job = .swap := of_decide_eq_true h
  simp [PendingEntry.isOf, h, PendingJob.stream]

/-- The entry of a HALT is of no stream. -/
theorem isOf_false_of_halt (e : PendingEntry) (i : StreamId) (h : decide (e.job = .halt) = true) : e.isOf i = false := by
  simp only [decide_eq_true_eq] at h
  simp [PendingEntry.isOf, h, PendingJob.stream]

/-- With no swap pending there is nothing to settle. -/
theorem State.settleSwap_none {s : State} (h : s.plans.swapPending = false) (cycle : Option Half) : s.settleSwap cycle = s := by
  simp [State.settleSwap, h]

/-- A pending swap is a swap, with the mark cleared and the entry answered. -/
theorem State.settleSwap_eq {s : State} (h : s.plans.swapPending = true) (cycle : Option Half) :
    s.settleSwap cycle = (s.applySwap.withPlans { s.applySwap.plans with swapPending := false }).withReq
      (s.applySwap.req.answer (fun e => decide (e.job = .swap))
        fun e => e.reply .done (.swapped s.applySwap.plans.active.length cycle)) := by
  simp only [State.settleSwap, h, if_true, State.withPlans_req, State.withPlans_plans]

/-- A pending swap applied, whole (R66, R67). -/
theorem State.settleSwap_spec {s : State} (h : s.plans.swapPending = true) (cycle : Option Half) :
    (s.settleSwap cycle).plans = { active := s.plans.staged, staged := [], swapPending := false } ∧
    (∀ i, (s.settleSwap cycle).opening i =
      if s.losesSlots i = true then none else (s.opening i).map (·.recounted s.plans.staged i)) ∧
    (∀ i, ((s.settleSwap cycle).stream i).generation = (s.stream i).generation ∧
      ((s.settleSwap cycle).stream i).counters = (s.stream i).counters) ∧
    (s.settleSwap cycle).req.replyQueue = s.req.replyQueue ++ s.drainReplies s.losesSlots ++ s.swapReplies cycle ∧
    (s.settleSwap cycle).req.pendingTable = (s.entriesLeft s.losesSlots).eraseP (·.isSwap) ∧
    (s.settleSwap cycle).bus = s.bus ∧ (s.settleSwap cycle).link = s.link ∧ (s.settleSwap cycle).req.link = s.req.link ∧
    (s.settleSwap cycle).req.handling = s.req.handling ∧ (s.settleSwap cycle).clockRunning = s.clockRunning ∧
    (s.settleSwap cycle).rstLow = s.rstLow ∧ (s.settleSwap cycle).pending = s.pending ∧
    ((∀ i, s.losesSlots i = false) → (s.settleSwap cycle).ring = s.ring ∧ (s.settleSwap cycle).coll = s.coll ∧
      (s.settleSwap cycle).req.notices = s.req.notices ∧ (s.settleSwap cycle).req.globals = s.req.globals) := by
  have hspec := State.applySwap_spec s
  have htable := State.applySwap_pendingTable s
  rw [State.settleSwap_eq h]
  generalize s.applySwap = t at hspec htable ⊢
  obtain ⟨g1, g2, g3, g4, g5, g6, g7, g8, g9, g10, g11, g12, g13⟩ := hspec
  have hq : t.req.pendingTable.find? (fun e => decide (e.job = .swap)) = s.req.pendingTable.find? (·.isSwap) :=
    g5 (fun e => decide (e.job = .swap)) fun e i _ => isOf_false_of_swap e i
  rw [RequestUnit.answer_eq]
  refine ⟨?_, fun i => ?_, fun i => ?_, ?_, by rw [← htable]; rfl, g6, g7, g8, g9, g10, g11, g12, fun hn => ?_⟩
  · simp [g1]
  · simpa using g2 i
  · simpa using g3 i
  · simp only [State.withReq_req, g4, hq, State.swapReplies]
    congr 1
    cases hs : s.req.pendingTable.find? (·.isSwap) with
    | none => rfl
    | some e =>
      have he : e.job = .swap := of_decide_eq_true (List.find?_some (p := PendingEntry.isSwap) hs)
      simp [PendingEntry.reply, he, PendingJob.kind, PendingJob.stream, streamByte, g1]
  · simp [g13 hn, State.recount]

/-- A pending swap applied, as one sequence of closes (R66, R67, R103). -/
theorem State.settleSwap_swapsTo {s : State} (h : s.plans.swapPending = true) (cycle : Option Half) :
    s.swapsTo cycle (s.settleSwap cycle) := by
  refine ⟨s.applySwap, s.applySwap_drainsTo, ?_⟩
  have hreplies := (State.settleSwap_spec h cycle).2.2.2.1
  rw [← (State.applySwap_spec s).2.2.2.1, State.settleSwap_eq h] at hreplies
  rw [State.settleSwap_eq h]
  generalize s.applySwap = t at hreplies ⊢
  rw [RequestUnit.answer_eq] at hreplies ⊢
  rw [← hreplies]
  rfl

theorem CycleEngine.halted_eq (b : CycleEngine) : b.halted = b.stopped := rfl

/-- The SWAP's entry and the entries of streams leave the table in either order. -/
theorem foldl_eraseP_isSwap (l : List StreamId) (es : List PendingEntry) :
    l.foldl (fun es i => es.eraseP (·.isOf i)) (es.eraseP (·.isSwap)) =
      (l.foldl (fun es i => es.eraseP (·.isOf i)) es).eraseP (·.isSwap) := by
  induction l generalizing es with
  | nil => rfl
  | cons i l ih =>
    rw [List.foldl_cons, List.foldl_cons, ← ih, eraseP_comm_of_disjoint fun e he => isOf_false_of_swap e i he]

/-- The entries of the drains a swap ends, and then those of the other drains, are the entries of all drains. -/
theorem entriesLeft_after_swap (s : State) :
    s.entriesLeft s.isDraining = (allStreams.filter fun i => s.isDraining i && !s.losesSlots i).foldl
      (fun es i => es.eraseP (·.isOf i)) (s.entriesLeft s.losesSlots) := by
  have hcomm : RightCommutative fun (es : List PendingEntry) (i : StreamId) => es.eraseP (·.isOf i) := ⟨eraseP_isOf_comm⟩
  have hperm : (allStreams.filter s.isDraining).Perm
      (allStreams.filter s.losesSlots ++ allStreams.filter fun i => s.isDraining i && !s.losesSlots i) := by
    have h := (List.filter_append_perm s.losesSlots (allStreams.filter s.isDraining)).symm
    rw [List.filter_filter, List.filter_filter] at h
    have hl : (fun i => s.losesSlots i && s.isDraining i) = s.losesSlots := by
      funext i
      unfold State.losesSlots
      cases s.isDraining i <;> simp
    rw [hl] at h
    refine h.trans (List.Perm.append_left _ (List.Perm.of_eq (List.filter_congr fun i _ => ?_)))
    cases s.isDraining i <;> simp
  unfold State.entriesLeft
  rw [hperm.foldl_eq, List.foldl_append]

/-- The stop event less the answer to the HALT, whole (R85): State.stopsTo says every field. -/
theorem State.stopBus_stopsTo (s : State) : s.stopsTo s.stopBus := by
  have key : ∀ u : State, u.endsBy (fun _ => true) = u.isDraining := by
    intro u; funext i
    unfold State.endsBy State.isDraining
    cases u.opening i <;> simp
  unfold State.stopBus
  cases hp : s.plans.swapPending with
  | false =>
    have hp' : (s.withBus s.bus.halted).plans.swapPending = false := hp
    rw [State.settleSwap_none hp']
    obtain ⟨g1, g2, g3, g4, g5, g6, g7, g8, g9, g10, g11, g12, g13⟩ :=
      State.endDrains_spec (s.withBus s.bus.halted) (fun _ => true)
    rw [key] at g1 g3 g13
    have hd : (s.withBus s.bus.halted).isDraining = s.isDraining := rfl
    rw [hd] at g1 g3 g13
    have hdrains := State.endDrains_drainsTo (s.withBus s.bus.halted) fun _ => true
    have htable := State.drainsTo_pendingTable hdrains
    rw [key] at hdrains htable
    unfold State.stopsTo
    rw [hp]
    refine ⟨⟨_, fun _ => rfl, fun h => absurd h (by simp), hdrains⟩, g6, by simpa using g5, fun i => by simpa using g1 i, g2, ?_, htable,
      fun hn => ?_, g7, g8, g9, g10, g11, g12⟩
    · rw [g3]
      simp [State.drainReplies]
    · rw [g13 hn]
      exact ⟨rfl, rfl, rfl, rfl⟩
  | true =>
    have hp' : (s.withBus s.bus.halted).plans.swapPending = true := hp
    obtain ⟨a1, a2, a3, a4, a5, a6, a7, a8, a9, a10, a11, a12, a13⟩ := State.settleSwap_spec hp' none
    obtain ⟨-, -, -, -, b5, -⟩ := State.applySwap_spec (s.withBus s.bus.halted)
    have hswaps := State.settleSwap_swapsTo hp' none
    have htable : ∀ q : PendingEntry → Bool, (∀ e, q e = true → e.isSwap = false) →
        (∀ e i, s.losesSlots i = true → q e = true → e.isOf i = false) →
        ((s.withBus s.bus.halted).settleSwap none).req.pendingTable.find? q = s.req.pendingTable.find? q := by
      intro q h1 h2
      rw [a5, find?_eraseP_of_disjoint h1, ← State.applySwap_pendingTable, b5 q h2]
      rfl
    generalize (s.withBus s.bus.halted).settleSwap none = u at *
    obtain ⟨g1, g2, g3, g4, g5, g6, g7, g8, g9, g10, g11, g12, g13⟩ := State.endDrains_spec u (fun _ => true)
    have hdrains := State.endDrains_drainsTo u fun _ => true
    have hentries := State.drainsTo_pendingTable hdrains
    rw [key] at g1 g3 g13 hdrains hentries
    have hl : (s.withBus s.bus.halted).losesSlots = s.losesSlots := rfl
    have ha2 : ∀ i, u.opening i = if s.losesSlots i = true then none else (s.opening i).map (·.recounted s.plans.staged i) := a2
    have hdrain : ∀ i, u.isDraining i = (s.isDraining i && !s.losesSlots i) := by
      intro i
      unfold State.isDraining
      rw [ha2]
      cases hls : s.losesSlots i with
      | true => simp
      | false =>
        cases ho : s.opening i with
        | none => simp
        | some o => simp [Opening.recounted]
    unfold State.stopsTo
    rw [hp]
    simp only [if_true, Bool.true_and]
    refine ⟨⟨u, fun h => absurd h (by simp), fun _ => hswaps, hdrains⟩, g6.trans a6, g5.trans a1, fun i => ?_, fun i => ?_, ?_, ?_,
      fun hn => ?_, g7.trans a7, g8.trans a8, g9.trans a9,
      g10.trans a10, g11.trans a11, g12.trans a12⟩
    · rw [g1 i, hdrain, ha2]
      cases hd : s.isDraining i with
      | false =>
        have hls : s.losesSlots i = false := by simp [State.losesSlots, hd]
        simp [hls]
      | true => cases hls : s.losesSlots i <;> simp
    · have h3 := a3 i
      exact ⟨(g2 i).1.trans h3.1, (g2 i).2.trans h3.2⟩
    · rw [g3, a4]
      have hsw : (s.withBus s.bus.halted).swapReplies none = s.swapReplies none := rfl
      have hdr : (s.withBus s.bus.halted).drainReplies (s.withBus s.bus.halted).losesSlots = s.drainReplies s.losesSlots := rfl
      have hdr2 : u.drainReplies u.isDraining = s.drainReplies (fun i => s.isDraining i && !s.losesSlots i) := by
        unfold State.drainReplies
        rw [funext hdrain]
        refine List.filterMap_congr fun i hi => ?_
        have hiNot : s.losesSlots i = false := by
          have := (List.mem_filter.1 hi).2
          simp only [Bool.and_eq_true, Bool.not_eq_true'] at this
          exact this.2
        rw [htable (·.isOf i) (fun e he => ?_) (fun e j hj he => ?_)]
        · cases hs : e.isSwap with
          | false => rfl
          | true => rw [isOf_false_of_swap e i hs] at he; exact absurd he (by simp)
        · refine PendingEntry.isOf_disjoint (fun hij => ?_) e he
          rw [← hij, hiNot] at hj
          exact absurd hj (by simp)
      rw [hsw, hdr, hdr2]
      simp [List.append_assoc]
    · rw [hentries, a5, foldl_eraseP_isSwap, funext hdrain]
      exact congrArg _ (entriesLeft_after_swap s).symm
    · have hnl : ∀ i, s.losesSlots i = false := fun i => by simp [State.losesSlots, hn i]
      have := a13 hnl
      have hu2 : u.endDrains (fun _ => true) = u := g13 fun i => by rw [hdrain, hn i]; rfl
      rw [hu2]
      exact this

end Sys2Proof.Machine
end

