-- ==== Sys2Proof/Tests/Slice0.lean ====
section
/-! SUPPORT. The package's own tests: the refusals of the well-formedness check, cases of the spec's worked examples on small
states, and for every statement with hypotheses a state and operands that meet them, at the ends of their ranges. -/

namespace Sys2Proof.Tests

open Sys2Proof.Machine

set_option Elab.async false

/-! ## The well-formedness check -/

theorem test_sync_byte_is_no_hunt_byte : (Instr.huntByte 0xB4).wf = false ∧ (Instr.huntByte 0xB5).wf = true := by decide +kernel
theorem test_short_pulse_is_no_reset :
    (Instr.powerOnReset (.rstLow 999) false false).wf = false ∧ (Instr.powerOnReset (.rstLow 1000) false false).wf = true := by
  decide +kernel
theorem test_return_frame_has_nine_bytes : (Instr.slotOutcome (some (List.replicate 10 0))).wf = false ∧
    (Instr.slotOutcome (some (List.replicate 9 0))).wf = true ∧ (Instr.slotOutcome none).wf = true := by decide +kernel

/-! ## Small states -/

/-- The part after reset with one frame in the receive buffer. -/
def holding (s : State) (f : Frame) : State := { s with link := { s.link with rxBuf := [f] } }

/-- An open stream with ring size 64, blocks 0 and 1, play position 100H and 4 fresh samples. -/
def aStream (phase : Phase) : Opening where
  phase := phase
  station := 5
  channel := 2
  ringSize := 64
  blockMap := [0, 1]
  playPos := some 0x100
  freshCount := 4
  missRun := 1
  primeDepth := 4
  starveLimit := 3
  policy := .repeatLast
  safeValue := 9
  lastPlayed := 8
  collectBatch := 2
  mask := .all
  activeSlots := 1
  silentRun := 0

/-- The part after reset with stream 5 open. -/
def opened (o : Opening) : State := State.reset.withOpening 5 (some o)

/-- The bus RUNNING in the gap, with an active plan of stream 5 and IDLE. -/
def inGap (s : State) : State :=
  { s with plans := { s.plans with active := [.stream 5, .idle] }
           bus := { s.bus with state := .running, cycleTimer := some 1020, cycleNumber := 3 } }

/-- A cycle of that plan in progress, `k` slots of it begun. -/
def inCycle (s : State) (k : Nat) : State :=
  { inGap s with bus := { (inGap s).bus with cycleTimer := some 2020, inProgress := true, slotCount := some 2, nextSlot := k } }

/-- The slot record of slot `k`, of stream 5 under generation 0. -/
def aSlot (k : Nat) : SlotRecord := { index := k, kind := .hold, target := some (5, 0), station := 5, channel := 2 }

/-- The slot record of an IDLE slot. -/
def idleSlot (k : Nat) : SlotRecord := { index := k, kind := .idle, target := none, station := 0, channel := 0 }

/-- A slot in flight. -/
def flying (s : State) (r : SlotRecord) : State := { s with bus := { s.bus with slotInFlight := some r } }

/-- Full queues: `replies` replies and `entries` pending entries. -/
def loaded (s : State) (replies entries : Nat) : State :=
  { s with req := { s.req with
      replyQueue := List.replicate replies { tag := 1, kind := 1, status := .done, stream := 0xFF, result := .none }
      pendingTable := List.replicate entries { tag := 1, job := .swap } } }

/-- A report. -/
def aReport : Report := { stream := 5, generation := 0, final := false, dropped := 0, records := [] }

/-- A report queue of a length, with a buffer and a stall list. -/
def collecting (s : State) (reports : Nat) (buffer : List ReturnRecord) (stalled : List StreamId) : State :=
  { s with coll := { s.coll with
      queue := List.replicate reports aReport, buffers := s.coll.buffers.put 5 buffer, stallList := stalled } }

/-- `n` return records. -/
def records (n : Nat) : List ReturnRecord := List.replicate n { cycle := 0, slot := 0, outcome := .missing }

/-- The replies queued after a command. -/
def repliesAfter (s : State) (c : Instr) : List Reply := (s.after c).req.replyQueue

/-- What a stream's record holds after a command. -/
def openingAfter (s : State) (c : Instr) (i : StreamId) : Option Opening := (s.after c).opening i

/-! ## The frames -/

def helloFrame : Frame := [0x01, 7]
/-- Stream 5, station 5, channel 2, ring size 64, prime depth 4, starve limit 3, REPEAT, safe value 0, collect batch 2. -/
def openFrame : Frame := [0x02, 3, 5, 5, 2, 0, 64, 0, 4, 3, 0, 0, 0, 0, 0, 2, 2]
def openRequest : OpenRequest where
  stream := 5
  station := 5
  channel := 2
  ringSize := 64
  primeDepth := 4
  starveLimit := 3
  policy := .repeatLast
  safeValue := 0
  start := none
  batch := some 2
  mask := none
def closeFrame (drain : Byte) : Frame := [0x03, 4, 5, drain]
def resumeFrame : Frame := [0x04, 13, 5, 0]
def resumeAtFrame : Frame := [0x04, 14, 5, 1, 0x02, 0x00]
/-- Stream 5: starve limit 1, collect batch `batch` and notice mask with STATE alone. -/
def tuneFrame (batch : Byte) : Frame := [0x05, 9, 5, 0x32, 1, batch, 1]
def tuneRequest (batch : Byte) : TuneRequest where
  stream := 5
  primeDepth := none
  starveLimit := some 1
  policy := none
  safeValue := none
  batch := some batch
  mask := some { state := true, discard := false, silent := false }
def queryFrame : Frame := [0x06, 9, 5]
def countersFrame (target clear : Byte) : Frame := [0x07, 9, target, clear]
def flushFrame : Frame := [0x08, 9, 5]
def stageFrame : Frame := [0x09, 1, 2, 5, 0xFF]
def swapFrame : Frame := [0x0A, 2]
def startFrame : Frame := [0x0B, 6]
def haltFrame : Frame := [0x0C, 6]
def periodFrame (h l : Byte) : Frame := [0x0D, 6, h, l]
def resetFrame : Frame := [0x0E, 6]
/-- Stream 5: two values from sequence number 0FFH on. -/
def bundleFrame : Frame := [0x20, 12, 5, 0x00, 0xFF, 2, 0, 0, 0, 1, 0, 0, 0, 2]
def bundleRequest : BundleRequest where
  stream := 5
  first := 0x00FF
  values := [1, 2]

/-! ## Cases of the spec -/

/-- The CRC-16 of the nine characters 1 to 9 with these parameters is 29B1H (R126). -/
theorem test_crc : crc16 [0x31, 0x32, 0x33, 0x34, 0x35, 0x36, 0x37, 0x38, 0x39] = 0x29B1#16 := by decide +kernel
theorem test_hello : repliesAfter (holding State.reset helloFrame) .hello =
    [{ tag := 7, kind := 1, status := .done, stream := 0xFF, result := .hello 256 .stopped }] := by decide +kernel
theorem test_unknown_kind : repliesAfter (holding State.reset [0x30, 7]) .unknownKind =
    [{ tag := 7, kind := 0x30, status := .unknownKind, stream := 0xFF, result := .none }] := by decide +kernel
/-- The case of section 11-2: blocks 0 and 1, adopting, generation 1. -/
theorem test_open : ((openingAfter (holding State.reset openFrame) .openStream 5).map fun o =>
      (o.phase, o.blockMap, o.playPos, o.lastPlayed)) = some (.sweeping, [0, 1], none, 0) ∧
    (((holding State.reset openFrame).after .openStream).stream 5).generation = 1 ∧
    ((holding State.reset openFrame).after .openStream).ring.engine = .busy 5 0 := by decide +kernel
theorem test_close : ((holding (opened (aStream .playing)) (closeFrame 0)).after .closeAtOnce).opening 5 = none ∧
    ((holding (opened (aStream .playing)) (closeFrame 0)).after .closeAtOnce).ring.freeBlocks.drop 256 = [0, 1] := by decide +kernel
/-- The case of section 11-4: with 4 fresh samples and prime depth 4 the stream plays at once. -/
theorem test_resume : (openingAfter (holding (opened (aStream .starved)) resumeFrame) .resumeWithoutSequence 5).map (·.phase) =
    some .playing := by decide +kernel
theorem test_resume_at : (openingAfter (holding (opened (aStream .playing)) resumeAtFrame) .resumeWithStartSequence 5).map
    (fun o => (o.phase, o.playPos, o.freshCount)) = some (.sweeping, some 0x200, 0) := by decide +kernel
/-- The case of section 1-6-1: a starve limit at the miss run starves the stream. -/
theorem test_tune : (openingAfter (holding (opened (aStream .playing)) (tuneFrame 2)) .tune 5).map (·.phase) = some .starved ∧
    (((holding (opened (aStream .playing)) (tuneFrame 2)).after .tune).noticesOf 5).state = { flag := true, count := 1 } := by
  decide +kernel
theorem test_stage : ((holding State.reset stageFrame).after .stage).plans.staged = [.stream 5, .idle] := by decide +kernel
theorem test_period : repliesAfter (holding State.reset (periodFrame 0 99)) .period =
    [{ tag := 6, kind := 0x0D, status := .badValue, stream := 0xFF, result := .none }] ∧
    ((holding State.reset (periodFrame 0x27 0x10)).after .period).bus.period = 10000 := by decide +kernel
theorem test_sync_byte : (State.reset.after .syncByte).link.rx = .length 0xFFFF#16 := by decide +kernel
theorem test_bad_length : ((State.reset.after .syncByte).after (.lengthByte 251)).link.counters.badLength = 1 := by decide +kernel
/-- The sample FFH is late against play position 100H, the sample 100H belongs at ring index 0 (R43, R23). -/
theorem test_late_sample : (aStream .playing).entryNumber 0x100 = some 0 ∧ seqDist 0xFF 0x100 = -1 ∧
    seqDist 0x7FFF 0xFFFF = -32768 := by decide +kernel
/-- The case of section 2-2: sample 1234H with ring size 128 belongs in block 3. -/
theorem test_ring_index : ({ aStream .playing with ringSize := 128, blockMap := [40, 3, 201, 17] } : Opening).entryNumber 0x1234 =
    some (3 * 32 + 20) := by decide +kernel
theorem test_cycle_start : ((inGap (opened (aStream .playing))).after .cycleStart).bus.busTx = some (.cycleStart 4) := by decide +kernel
theorem test_hold : ((inCycle (opened (aStream .starved)) 0).after .slotEvent).bus.busTx = some (.command .hold 5 2 9) := by
  decide +kernel
theorem test_idle_slot : ((inCycle (opened (aStream .starved)) 1).after .slotEvent).bus.slotInFlight = some (idleSlot 1) := by
  decide +kernel
theorem test_outcome : (((flying (inCycle (opened (aStream .playing)) 1) (aSlot 0)).after (.slotOutcome none)).stream 5).counters.missing
    = 1 := by decide +kernel

/-- The frame that a part in the gap drains and swaps under: stream 5 DRAINING with its CLOSE pending, and a SWAP to a plan
that leaves it no slot. -/
def swapping : State :=
  { (inGap (opened (aStream .draining))) with
    plans := { active := [.stream 5, .idle], staged := [.idle], swapPending := true }
    req := { State.reset.req with pendingTable := [{ tag := 2, job := .swap }, { tag := 4, job := .closeOf 5 }] } }

/-- A HALT in the gap ends the drain that the swap leaves without slots, then answers the SWAP, then the HALT, and leaves no
entry (R67, R85, R103). -/
theorem test_stop_ends_drains : (repliesAfter (holding swapping haltFrame) .halt).map (fun r => (r.tag, r.kind, r.status)) =
    [(4, 0x03, .done), (2, 0x0A, .done), (6, 0x0C, .done)] ∧
    ((holding swapping haltFrame).after .halt).req.pendingTable = [] ∧
    ((holding swapping haltFrame).after .halt).ring.freeBlocks.length = 258 := by decide +kernel

/-! ### The lines (R125, R164, R165) -/

/-- The sync byte B4H: start bit, 0, 0, 1, 0, 1, 1, 0, 1, stop bit. -/
theorem test_line_bits : lineBits 0xB4 = [false, false, false, true, false, true, true, false, true, true] := by decide
/-- At 3 Mbit/s the edges fall at the first CLK periods at or after 0, 16.67, 33.33, 50 and 66.67; at 12 Mbit/s a byte ends
at 41.67. -/
theorem test_bit_edges : (List.range 5).map LinkRate.r3.edge = [0, 17, 34, 50, 67] ∧ LinkRate.r1.edge 10 = 500 ∧
    LinkRate.r12.edge 10 = 42 := by decide
/-- A line idles, brings a byte with its stop bit spoiled, and a run of two bytes. -/
theorem test_line_received : LineReceiver.waiting.take
    ([true, true] ++ [false, true, false, false, false, false, false, false, true, false] ++ [true] ++ runBits [0xB4, 2]) =
    [0x81, 0xB4, 2] := by decide +kernel
/-- FTX at 1 Mbit/s: the start bit for 50 CLK periods, and the stop level when the frame is over. -/
theorem test_ftx : let s : State := { State.reset with link := { State.reset.link with tx := .sending [0xB4] } }
    s.ftx 49 = false ∧ s.ftx 149 = false ∧ s.ftx 150 = true ∧ s.ftx 500 = true ∧ State.reset.ftx 0 = true := by decide +kernel
/-- After a frame of 10 bytes at 12 Mbit/s with a reply behind it, the next frame's bit edge 8 falls 33 CLK periods after its
start edge; with no source to follow, the next frame begins a run of its own, whose edge 8 falls at 34. -/
theorem test_run_spans_frames :
    let sending (s : State) (bytes : List Byte) : State := { s with link := { s.link with rate := some .r12, tx := .sending bytes } }
    let goesOn := sending ((sending (loaded State.reset 1 0) (List.replicate 10 0)).after .frameSent) [0x80]
    let begins := sending ((sending State.reset (List.replicate 10 0)).after .frameSent) [0x80]
    goesOn.link.runSent = 100 ∧ goesOn.ftx 32 = false ∧ goesOn.ftx 33 = true ∧
    begins.link.runSent = 0 ∧ begins.ftx 33 = false ∧ begins.ftx 34 = true := by decide +kernel
/-- BDE: asserted with the command frame, released for the return window, and in the gap. -/
theorem test_bde : let s := (inCycle (opened (aStream .starved)) 0).after .slotEvent
    s.bde = true ∧ s.bus.windowOpen = false ∧ s.passTime.bde = false ∧ s.passTime.bus.windowOpen = true ∧
    (s.passTime.after (.slotOutcome none)).bus.windowOpen = false ∧ (inGap State.reset).bde = false := by decide +kernel

/-! ## For every statement with hypotheses, a state and operands that meet them -/

/-- The head frame of `holding` can be taken in a part that runs and has a reply place. -/
theorem canTake_holding {s : State} {f : Frame} (hc : s.clockRunning = true) (hr : s.rstLow = false)
    (hh : s.req.handling = none) (hp : s.req.replyQueue.length + s.req.pendingTable.length ≤ 15) :
    (holding s f).canTake f [] := ⟨hc, hr, hh, rfl, fun _ => hp⟩

/-- After reset any frame can be taken. -/
theorem canTake_reset (f : Frame) : (holding State.reset f).canTake f [] :=
  canTake_holding rfl rfl rfl (by decide)

/-- With stream 5 open any frame can be taken. -/
theorem canTake_opened (o : Opening) (f : Frame) : (holding (opened o) f).canTake f [] :=
  canTake_holding rfl rfl rfl (Nat.zero_le _)

/-- The record of `opened`. -/
theorem opening_opened (o : Opening) (f : Frame) : (holding (opened o) f).opening 5 = some o := by
  show (opened o).opening 5 = _
  simp [opened]

theorem test_witness_StepRunsFrontCommand :
    ({ State.reset with pending := [.hello, .pick] } : State).pending = .hello :: [.pick] ∧ State.reset.pending = [] ∧
    State.reset.inService ∧ ¬ ({ State.reset with rstLow := true } : State).inService ∧ State.reset.bus.busTx = none ∧
    (let s : State := { inGap State.reset with bus := { (inGap State.reset).bus with busTx := some (.cycleStart 0) } };
      s.bus.busTx = some (.cycleStart 0) ∧ s.bus.state ≠ .stopped ∧ s.rstLow = false) :=
  ⟨rfl, rfl, ⟨rfl, rfl⟩, fun h => absurd h.2 (by decide), rfl, rfl, by decide, rfl⟩

theorem test_witness_PowerOnResetSetsEveryBlock : 1000 ≤ 1000 ∧ 999 < 1000 := by decide

theorem test_witness_ReleaseReadsStrapsAndStoppedPartRests :
    ({ State.reset with rstLow := true } : State).rstLow = true ∧ State.reset.rstLow = false ∧
    ({ State.reset with clockRunning := false } : State).clockRunning = false ∧
    (∀ cause r1 r0, Instr.hello ≠ .powerOnReset cause r1 r0) ∧ (∀ r1 r0, Instr.hello ≠ .rstRelease r1 r0) ∧
    Instr.hello ≠ .clockStops ∧ Instr.hello ≠ .clockReturns :=
  ⟨rfl, rfl, rfl, nofun, nofun, by decide, by decide⟩

/-- The framer in a state. -/
def framing (rx : RxFramer) (frames : Nat) : State :=
  { State.reset with link := { State.reset.link with rx := rx, rxBuf := List.replicate frames helloFrame } }

theorem framing_inService (rx : RxFramer) (n : Nat) : (framing rx n).inService := ⟨rfl, rfl⟩

theorem test_witness_HuntTakesSyncAndCountsHuntBytes :
    (framing .hunt 0).inService ∧ (framing .hunt 0).link.rx = .hunt ∧ (0xB3 : Byte) ≠ 0xB4#8 ∧ RxFramer.length 5 ≠ .hunt :=
  ⟨framing_inService .., rfl, by decide, by decide⟩

theorem test_witness_LengthByteBeginsBodyOrAbandons :
    (framing (.length 5) 0).inService ∧ (framing (.length 5) 0).link.rx = .length 5 ∧
    (2 ≤ (2 : Byte).toNat ∧ (250 : Byte).toNat ≤ 250) ∧ (1 : Byte).toNat < 2 ∧ 250 < (251 : Byte).toNat :=
  ⟨framing_inService .., rfl, by decide, by decide, by decide⟩

theorem test_witness_BodyAndCheckBytesEndFrame :
    (∀ rx n, (framing rx n).inService) ∧ (framing (.body 2 [1] 5) 0).link.rx = .body 2 [1] 5 ∧
    (framing (.checkHigh [1, 2] 5) 0).link.rx = .checkHigh [1, 2] 5 ∧
    (framing (.checkLow [1, 2] 0x12 0x1234) 7).link.rx = .checkLow [1, 2] 0x12 0x1234 ∧
    0x12#8 ++ 0x34#8 = (0x1234 : Half) ∧ 0x12#8 ++ 0x35#8 ≠ (0x1234 : Half) ∧
    (framing (.checkLow [1, 2] 0x12 0x1234) 7).link.rxBuf.length < 8 ∧
    8 ≤ (framing (.checkLow [1, 2] 0x12 0x1234) 8).link.rxBuf.length :=
  ⟨framing_inService, rfl, rfl, rfl, by decide, by decide, by decide, by decide⟩

theorem test_witness_TimeoutAbandonsFrame :
    (framing (.length 5) 0).inService ∧ (framing (.length 5) 0).link.rx ≠ .hunt ∧ (framing .hunt 0).link.rx = .hunt :=
  ⟨framing_inService .., by decide, rfl⟩

theorem test_witness_FramedBytesReachReceiveBuffer :
    (framing .hunt 7).inService ∧ (framing .hunt 7).link.rx = .hunt ∧ 2 ≤ helloFrame.length ∧
    (List.replicate 250 0 : Frame).length ≤ 250 ∧ (framing .hunt 7).link.rxBuf.length < 8 ∧
    8 ≤ (framing .hunt 8).link.rxBuf.length ∧
    (0#8 ++ 0#8 : Half) ≠ crc16 (byteOf helloFrame.length :: helloFrame) :=
  ⟨framing_inService .., rfl, by decide, by decide +kernel, by decide, by decide, by decide +kernel⟩

theorem test_witness_HeadFrameTakenByItsKind :
    (holding (loaded State.reset 15 0) helloFrame).canTake helloFrame [] ∧
    ((holding (loaded State.reset 9 7) helloFrame).link.rxBuf = helloFrame :: [] ∧ needsReply helloFrame = true ∧
      16 ≤ (holding (loaded State.reset 9 7) helloFrame).req.replyQueue.length +
        (holding (loaded State.reset 9 7) helloFrame).req.pendingTable.length) ∧
    frameCommand openFrame ≠ frameCommand helloFrame ∧ kindOf [0x0F, 1] ≠ 0x20 ∧ 0x0E < (kindOf [0x0F, 1]).toNat :=
  ⟨canTake_holding rfl rfl rfl (by decide), ⟨rfl, by decide, by decide⟩, by decide, by decide, by decide⟩

theorem test_witness_BodiesAreReadExactly :
    parseOpen openFrame = some openRequest ∧ parseTune (tuneFrame 2) = some (tuneRequest 2) ∧
    parseBundle bundleFrame = some bundleRequest := by decide

theorem test_witness_HelloAnswered :
    (holding State.reset helloFrame).canTake helloFrame [] ∧ kindOf helloFrame = 0x01 ∧
    tagOf [0x01, 0] = 0 ∧ ([0x01, 7, 0] : Frame).length ≠ 2 :=
  ⟨canTake_reset _, rfl, rfl, by decide⟩

theorem test_witness_CountersReadAndCleared :
    (∀ target clear, (holding State.reset (countersFrame target clear)).canTake (countersFrame target clear) []) ∧
    (kindOf (countersFrame 5 1) = 0x07 ∧ tagOf (countersFrame 5 1) ≠ 0 ∧ (countersFrame 5 1).length = 4) ∧
    1 < (byteAt (countersFrame 5 2) 3).toNat ∧ (byteAt (countersFrame 5 1) 3).toNat ≤ 1 ∧
    (64 ≤ (byteAt (countersFrame 64 0) 2).toNat ∧ byteAt (countersFrame 64 0) 2 ≠ 0xFF) ∧
    (byteAt (countersFrame 63 0) 2).toNat = (63 : StreamId).val ∧ byteAt (countersFrame 0xFF 1) 2 = 0xFF :=
  ⟨fun _ _ => canTake_reset _, by decide, by decide, by decide, by decide, by decide, by decide⟩

theorem test_witness_ResetCancelsAndClears :
    (holding (loaded State.reset 7 8) resetFrame).canTake resetFrame [] ∧ kindOf resetFrame = 0x0E ∧
    tagOf resetFrame ≠ 0 ∧ resetFrame.length = 2 ∧ ([0x0E, 6, 0] : Frame).length ≠ 2 :=
  ⟨canTake_holding rfl rfl rfl (by decide), by decide, by decide, by decide, by decide⟩

theorem test_witness_UnknownKindAnsweredOrCounted :
    (holding State.reset [0, 1]).canTake [0, 1] [] ∧ kindOf [0, 1] = 0 ∧ 0x0E < (kindOf [0x0F, 0]).toNat ∧
    kindOf [0x0F, 0] ≠ 0x20 ∧ tagOf [0, 1] ≠ 0 ∧ tagOf [0x0F, 0] = 0 :=
  ⟨canTake_reset _, by decide, by decide, by decide, by decide, by decide⟩

theorem openRequest_rangesGood : openRequest.rangesGood := by
  simp [OpenRequest.rangesGood, openRequest]

/-- The part with the pair (5, 2) held by stream 6. -/
def pairHeldBySix : State := State.reset.withOpening 6 (some (aStream .priming))

theorem pairTaken_six : pairHeldBySix.pairTaken openRequest := ⟨6, aStream .priming, by decide +kernel, rfl, rfl⟩

theorem not_pairTaken_reset (f : Frame) : ¬ (holding State.reset f).pairTaken openRequest := by
  rintro ⟨j, o, h, -⟩
  have : (holding State.reset f).opening j = none := by
    show (State.reset.streams.at j).opening = none
    simp [State.reset]
  rw [this] at h
  exact absurd h (by simp)

theorem test_witness_OpenRefusedByFirstFailingCheck :
    (holding State.reset openFrame).canTake openFrame [] ∧ kindOf openFrame = 0x02 ∧ parseOpen (openFrame ++ [0]) = none ∧
    tagOf openFrame ≠ 0 ∧ parseOpen openFrame = some openRequest ∧ openRequest.rangesGood ∧
    ¬ ({ openRequest with primeDepth := 64 } : OpenRequest).rangesGood ∧ openRequest.stream.toNat = (5 : StreamId).val ∧
    (holding (opened (aStream .priming)) openFrame).opening 5 ≠ none ∧
    (pairHeldBySix.opening 5 = none ∧ pairHeldBySix.pairTaken openRequest) ∧
    ((holding State.reset openFrame).opening 5 = none ∧ ¬ (holding State.reset openFrame).pairTaken openRequest) ∧
    8 ≤ (loaded State.reset 0 8).req.pendingTable.length ∧ (loaded State.reset 0 7).req.pendingTable.length < 8 ∧
    ([0] : List BlockId).length < openRequest.ringSize / 32 := by
  refine ⟨canTake_reset _, rfl, by decide, by decide, by decide, openRequest_rangesGood, ?_, by decide, by decide +kernel,
    ⟨by decide +kernel, pairTaken_six⟩, ⟨by decide +kernel, not_pairTaken_reset _⟩, by decide, by decide, by decide⟩
  simp [OpenRequest.rangesGood, openRequest]

/-- The ranges of an OPEN at their ends. -/
theorem test_open_ranges :
    ({ openRequest with stream := 63, station := 62, channel := 3, ringSize := 32, primeDepth := 31, starveLimit := 31
                        batch := some 16 } : OpenRequest).rangesGood ∧
    ({ openRequest with station := 1, channel := 0, ringSize := 512, primeDepth := 511, starveLimit := 1
                        batch := none } : OpenRequest).rangesGood ∧
    ¬ ({ openRequest with stream := 64 } : OpenRequest).rangesGood ∧ ¬ ({ openRequest with station := 63 } : OpenRequest).rangesGood ∧
    ¬ ({ openRequest with channel := 4 } : OpenRequest).rangesGood ∧ ¬ ({ openRequest with ringSize := 96 } : OpenRequest).rangesGood ∧
    ¬ ({ openRequest with starveLimit := 32 } : OpenRequest).rangesGood ∧
    ¬ ({ openRequest with batch := some 17 } : OpenRequest).rangesGood := by
  simp [OpenRequest.rangesGood, openRequest]

theorem test_witness_OpenAcceptedInOneClaim :
    (holding State.reset openFrame).canTake openFrame [] ∧ kindOf openFrame = 0x02 ∧ tagOf openFrame ≠ 0 ∧
    parseOpen openFrame = some openRequest ∧ openRequest.rangesGood ∧ openRequest.stream.toNat = (5 : StreamId).val ∧
    (holding State.reset openFrame).opening 5 = none ∧ ¬ (holding State.reset openFrame).pairTaken openRequest ∧
    (holding State.reset openFrame).req.pendingTable.length < 8 ∧
    openRequest.ringSize / 32 ≤ (holding State.reset openFrame).ring.freeBlocks.length :=
  ⟨canTake_reset _, rfl, by decide, by decide, openRequest_rangesGood, by decide, by decide +kernel, not_pairTaken_reset _,
    by decide, by decide +kernel⟩

theorem test_witness_CloseAtOnceClosesStream :
    (∀ o, (holding (opened o) (closeFrame 0)).canTake (closeFrame 0) [] ∧
      (holding (opened o) (closeFrame 0)).opening 5 = some o) ∧
    kindOf (closeFrame 0) = 0x03 ∧ (frameCommand (closeFrame 2) = .closeAtOnce ∧ byteAt (closeFrame 2) 3 ≠ 0) ∧
    tagOf (closeFrame 0) ≠ 0 ∧ (closeFrame 0).length = 4 ∧ byteAt (closeFrame 0) 3 = 0 ∧
    64 ≤ (byteAt [0x03, 4, 64, 0] 2).toNat ∧ (byteAt (closeFrame 0) 2).toNat = (5 : StreamId).val ∧
    (holding State.reset (closeFrame 0)).opening 5 = none :=
  ⟨fun o => ⟨canTake_opened o _, opening_opened o _⟩, rfl, by decide, by decide, by decide, by decide, by decide, by decide,
    by decide +kernel⟩

theorem test_witness_CloseWithDrainDrainsPlayingStream :
    (∀ o, (holding (opened o) (closeFrame 1)).canTake (closeFrame 1) [] ∧
      (holding (opened o) (closeFrame 1)).opening 5 = some o) ∧
    (holding (inGap (opened (aStream .playing))) (closeFrame 1)).canTake (closeFrame 1) [] ∧
    kindOf (closeFrame 1) = 0x03 ∧ byteAt (closeFrame 1) 3 = 1 ∧ tagOf (closeFrame 1) ≠ 0 ∧ (closeFrame 1).length = 4 ∧
    (byteAt (closeFrame 1) 2).toNat = (5 : StreamId).val ∧ (holding State.reset (closeFrame 1)).opening 5 = none ∧
    (aStream .playing).activeSlots ≠ 0 ∧ (inGap (opened (aStream .playing))).bus.state ≠ .stopped ∧
    (opened (aStream .playing)).bus.state = .stopped ∧
    8 ≤ (loaded State.reset 0 8).req.pendingTable.length ∧ (loaded State.reset 0 7).req.pendingTable.length < 8 :=
  ⟨fun o => ⟨canTake_opened o _, opening_opened o _⟩, canTake_holding rfl rfl rfl (by decide), rfl, by decide, by decide,
    by decide, by decide, by decide +kernel, by decide, by decide, by decide, by decide, by decide⟩

theorem test_witness_ResumeWithoutSequenceRestartsStarvedStream :
    (∀ o, (holding (opened o) resumeFrame).canTake resumeFrame [] ∧ (holding (opened o) resumeFrame).opening 5 = some o) ∧
    kindOf resumeFrame = 0x04 ∧ (frameCommand [0x04, 13, 5, 2] = .resumeWithoutSequence ∧ byteAt [0x04, 13, 5, 2] 3 ≠ 0) ∧
    tagOf resumeFrame ≠ 0 ∧ resumeFrame.length = 4 ∧ byteAt resumeFrame 3 = 0 ∧
    64 ≤ (byteAt [0x04, 13, 64, 0] 2).toNat ∧ (byteAt resumeFrame 2).toNat = (5 : StreamId).val ∧
    (holding State.reset resumeFrame).opening 5 = none ∧ (aStream .starved).phase = .starved ∧
    (aStream .starved).primeDepth ≤ (aStream .starved).freshCount :=
  ⟨fun o => ⟨canTake_opened o _, opening_opened o _⟩, rfl, by decide, by decide, by decide, by decide, by decide, by decide,
    by decide +kernel, rfl, by decide⟩

theorem test_witness_ResumeWithStartSequenceSweepsAgain :
    (∀ o, (holding (opened o) resumeAtFrame).canTake resumeAtFrame [] ∧
      (holding (opened o) resumeAtFrame).opening 5 = some o) ∧
    kindOf resumeAtFrame = 0x04 ∧
    (frameCommand [0x04, 13, 5, 3, 0, 0] = .resumeWithStartSequence ∧ byteAt [0x04, 13, 5, 3, 0, 0] 3 ≠ 1) ∧
    tagOf resumeAtFrame ≠ 0 ∧ resumeAtFrame.length = 6 ∧ byteAt resumeAtFrame 3 = 1 ∧
    (byteAt resumeAtFrame 2).toNat = (5 : StreamId).val ∧ (holding State.reset resumeAtFrame).opening 5 = none ∧
    ((aStream .playing).phase ≠ .sweeping ∧ (aStream .playing).phase ≠ .draining) ∧
    8 ≤ (loaded State.reset 0 8).req.pendingTable.length ∧ (loaded State.reset 0 7).req.pendingTable.length < 8 :=
  ⟨fun o => ⟨canTake_opened o _, opening_opened o _⟩, rfl, by decide, by decide, by decide, by decide, by decide,
    by decide +kernel, by decide, by decide, by decide⟩

/-- The frame `tuneFrame b` passes the checks of a TUNE for an open PLAYING stream 5. -/
theorem tunes_holding {s : State} {o : Opening} {b : Byte} (hc : s.clockRunning = true) (hr : s.rstLow = false)
    (hh : s.req.handling = none) (hp : s.req.replyQueue.length + s.req.pendingTable.length ≤ 15) (ho : s.opening 5 = some o)
    (hplay : o.phase = .playing) (hb : b.toNat ≤ 16) :
    (holding s (tuneFrame b)).tunes (tuneFrame b) [] (tuneRequest b) 5 o := by
  refine ⟨canTake_holding hc hr hh hp, rfl, (by decide : (9 : Byte) ≠ 0), rfl, rfl, ho, by simp [hplay], by simp [hplay], ?_⟩
  simp [TuneRequest.rangesGood, tuneRequest, hb]

theorem test_witness_TuneWritesFieldsAndCompares :
    (holding (opened (aStream .playing)) (tuneFrame 16)).tunes (tuneFrame 16) [] (tuneRequest 16) 5 (aStream .playing) ∧
    kindOf (tuneFrame 2) = 0x05 ∧ parseTune [0x05, 9, 5, 0] = none ∧ parseTune (tuneFrame 17) = some (tuneRequest 17) ∧
    ¬ (tuneRequest 17).rangesGood 64 ∧ (tuneRequest 2).stream.toNat = (5 : StreamId).val ∧
    (holding State.reset (tuneFrame 2)).opening 5 = none := by
  refine ⟨tunes_holding rfl rfl rfl (by decide) (by decide +kernel) rfl (by decide), rfl, by decide, by decide, ?_, rfl,
    by decide +kernel⟩
  simp [TuneRequest.rangesGood, tuneRequest]

/-- The part with stream 5 PLAYING with a batch, its buffer, `reports` reports and a stall list. -/
def collectingAt (batch reports buffer : Nat) (stalled : List StreamId) : State :=
  collecting (opened { aStream .playing with collectBatch := batch }) reports (records buffer) stalled

/-- TUNE frames with a batch pass for those states. -/
theorem tunes_collectingAt (batch reports buffer : Nat) (stalled : List StreamId) {b : Byte} (hb : b.toNat ≤ 16) :
    (holding (collectingAt batch reports buffer stalled) (tuneFrame b)).tunes (tuneFrame b) [] (tuneRequest b) 5
      { aStream .playing with collectBatch := batch } :=
  tunes_holding rfl rfl rfl (Nat.zero_le _) (opening_opened _ []) rfl hb

theorem test_witness_TuneMaskActsOnPendingNotices :
    (holding (collectingAt 2 0 0 []) (tuneFrame 2)).tunes (tuneFrame 2) [] (tuneRequest 2) 5
      { aStream .playing with collectBatch := 2 } := tunes_collectingAt 2 0 0 [] (by decide)

/-- Every batch before and after, buffer, queue and stall list is some state's, with the TUNE in its head frame; the last lines
are one choice for each case of the statement, at the ends of the ranges. -/
theorem test_witness_TuneBatchActsOnCollection :
    (∀ (old reports buffer : Nat) (stalled : List StreamId) (new : Byte), new.toNat ≤ 16 →
      let s := holding (collectingAt old reports buffer stalled) (tuneFrame new)
      s.tunes (tuneFrame new) [] (tuneRequest new) 5 { aStream .playing with collectBatch := old } ∧
      (tuneRequest new).batch = some new ∧ (s.coll.buffers.at 5).length = buffer ∧ s.coll.queue.length = reports ∧
      s.coll.stallList = stalled) ∧
    ((2 < (3 : Byte).toNat ∧ 2 < (3 : Byte).toNat) ∧ (2 < (3 : Byte).toNat ∧ (3 : Byte).toNat ≤ 3)) ∧
    ((0 < (1 : Byte).toNat ∧ (1 : Byte).toNat < 2 ∧ 0 < (1 : Byte).toNat) ∧ (1 : Byte).toNat ≤ 1 ∧ 11 < 12 ∧ 12 ≤ 12) ∧
    ((0 : Byte).toNat = 0 ∧ 16 ≠ 0 ∧ (16 : Byte).toNat ≤ 16) := by
  refine ⟨fun old reports buffer stalled new h => ⟨tunes_collectingAt old reports buffer stalled h, rfl, ?_, ?_, rfl⟩, by decide,
    by decide, by decide⟩
  · show ((collectingAt old reports buffer stalled).coll.buffers.at 5).length = buffer
    simp [collectingAt, collecting, records]
  · simp [holding, collectingAt, collecting]

theorem test_witness_QueryAnswersSnapshot :
    (holding (opened (aStream .playing)) queryFrame).canTake queryFrame [] ∧ kindOf queryFrame = 0x06 ∧
    tagOf queryFrame ≠ 0 ∧ queryFrame.length = 3 ∧ 64 ≤ (byteAt [0x06, 9, 64] 2).toNat ∧
    (byteAt [0x06, 9, 63] 2).toNat = (63 : StreamId).val :=
  ⟨canTake_opened _ _, rfl, by decide, by decide, by decide, by decide⟩

theorem test_witness_FlushReportsBuffer :
    (∀ batch reports buffer, (holding (collectingAt batch reports buffer []) flushFrame).canTake flushFrame [] ∧
      (holding (collectingAt batch reports buffer []) flushFrame).opening 5 =
        some { aStream .playing with collectBatch := batch }) ∧
    kindOf flushFrame = 0x08 ∧ tagOf flushFrame ≠ 0 ∧ flushFrame.length = 3 ∧
    (byteAt flushFrame 2).toNat = (5 : StreamId).val ∧ (holding State.reset flushFrame).opening 5 = none ∧
    (collectingAt 2 11 1 []).coll.buffers.at 5 ≠ [] ∧ (collectingAt 2 11 1 []).coll.queue.length < 12 ∧
    12 ≤ (collectingAt 2 12 1 []).coll.queue.length ∧ (collectingAt 2 11 0 []).coll.buffers.at 5 = [] :=
  ⟨fun _ _ _ => ⟨canTake_holding rfl rfl rfl (Nat.zero_le _), opening_opened _ []⟩, rfl, by decide, by decide, by decide,
    by decide +kernel, by decide +kernel, by decide, by decide, by decide +kernel⟩

theorem test_witness_StageWritesStagedPlan :
    (holding State.reset stageFrame).canTake stageFrame [] ∧ kindOf stageFrame = 0x09 ∧ tagOf stageFrame ≠ 0 ∧
    stageFrame.length = 3 + (byteAt stageFrame 2).toNat ∧ (holding State.reset stageFrame).plans.swapPending = false ∧
    ¬ ((byteAt stageFrame 2).toNat = 0 ∨ 96 < (byteAt stageFrame 2).toNat ∨
      (∃ b ∈ stageFrame.drop 3, 64 ≤ b.toNat ∧ b ≠ 0xFF) ∨ (∃ i : StreamId, 8 < (stageFrame.drop 3).count (byteOf i.val)) ∨
      (holding State.reset stageFrame).bus.period < 4 + 2 * (byteAt stageFrame 2).toNat + 8) ∧
    (∃ b ∈ ([0x09, 1, 1, 64] : Frame).drop 3, 64 ≤ b.toNat ∧ b ≠ 0xFF) ∧
    (∃ i : StreamId, 8 < (List.replicate 9 (5 : Byte)).count (byteOf i.val)) := by
  exact ⟨canTake_reset _, rfl, by decide, by decide, rfl, by decide +kernel, by decide, ⟨5, by decide⟩⟩

theorem test_witness_SwapAppliedOrDeferred :
    (∀ s : State, s.clockRunning = true → s.rstLow = false → s.req.handling = none →
      s.req.replyQueue.length + s.req.pendingTable.length ≤ 15 → (holding s swapFrame).canTake swapFrame []) ∧
    kindOf swapFrame = 0x0A ∧ tagOf swapFrame ≠ 0 ∧ swapFrame.length = 2 ∧ ([.idle] : Plan) ≠ [] ∧
    State.reset.plans.swapPending = false ∧ State.reset.plans.staged = [] ∧ State.reset.bus.state = .stopped ∧
    (inGap State.reset).bus.state ≠ .stopped ∧ State.reset.noDrains ∧ (opened (aStream .playing)).noDrains := by
  refine ⟨fun s h1 h2 h3 h4 => canTake_holding h1 h2 h3 h4, rfl, by decide, by decide, by decide, rfl, rfl, rfl, by decide, ?_, ?_⟩
  · unfold State.noDrains; decide +kernel
  · unfold State.noDrains; decide +kernel

theorem test_witness_StartRunsBus :
    (holding (opened (aStream .playing)) startFrame).canTake startFrame [] ∧ kindOf startFrame = 0x0B ∧ tagOf startFrame ≠ 0 ∧
    startFrame.length = 2 ∧ State.reset.bus.state = .stopped ∧ State.reset.plans.active = [] ∧
    (inGap State.reset).plans.active ≠ [] ∧ (inGap State.reset).bus.state = .running :=
  ⟨canTake_opened _ _, rfl, by decide, by decide, rfl, rfl, by decide, rfl⟩

theorem test_witness_HaltStopsOrDefers :
    (holding (inGap (opened (aStream .draining))) haltFrame).canTake haltFrame [] ∧
    (holding (inCycle (opened (aStream .draining)) 0) haltFrame).canTake haltFrame [] ∧
    kindOf haltFrame = 0x0C ∧ tagOf haltFrame ≠ 0 ∧ haltFrame.length = 2 ∧
    ((inGap State.reset).bus.state = .running ∧ (inGap State.reset).bus.inProgress = false) ∧
    (inCycle State.reset 0).bus.inProgress = true ∧
    ((holding swapping haltFrame).canTake haltFrame [] ∧ swapping.plans.swapPending = true ∧ swapping.isDraining 5 = true) ∧
    8 ≤ (loaded State.reset 0 8).req.pendingTable.length ∧ (loaded State.reset 0 7).req.pendingTable.length < 8 :=
  ⟨canTake_holding rfl rfl rfl (by decide), canTake_holding rfl rfl rfl (by decide), rfl, by decide, by decide, ⟨rfl, rfl⟩, rfl,
    ⟨canTake_holding rfl rfl rfl (by decide), rfl, by decide +kernel⟩, by decide, by decide⟩

theorem test_witness_PeriodSetWhileStopped :
    (∀ h l, (holding State.reset (periodFrame h l)).canTake (periodFrame h l) []) ∧ kindOf (periodFrame 0 100) = 0x0D ∧
    tagOf (periodFrame 0 100) ≠ 0 ∧ (periodFrame 0 100).length = 4 ∧ (0#8 ++ 99#8 : Half).toNat < 100 ∧
    (100 ≤ (0#8 ++ 100#8 : Half).toNat ∧ (0x27#8 ++ 0x10#8 : Half).toNat ≤ 10000) ∧ 10000 < (0x27#8 ++ 0x11#8 : Half).toNat ∧
    (4 + 2 * (List.replicate 44 PlanEntry.idle).length + 8 ≤ 100) ∧ 100 < 4 + 2 * (List.replicate 45 PlanEntry.idle).length + 8 :=
  ⟨fun _ _ => canTake_reset _, rfl, by decide, by decide, by decide, by decide, by decide, by decide, by decide⟩

theorem test_witness_CycleStartAppliesSwapAndBeginsCycle :
    (inGap (opened (aStream .draining))).inService ∧ (inGap State.reset).bus.cycleTimer = some 1020 ∧
    ((inGap State.reset).bus.state = .running ∧ (inGap State.reset).bus.inProgress = false) ∧
    (inGap State.reset).plans.swapPending = false ∧
    ({ inGap State.reset with plans := { active := [.idle], staged := [.idle], swapPending := true } } : State).plans.swapPending =
      true ∧
    (∀ i, (inGap (opened (aStream .playing))).losesSlots i = false) ∧ (inCycle State.reset 0).bus.inProgress = true ∧
    (swapping.inService ∧ swapping.bus.cycleTimer = some 1020 ∧ swapping.plans.swapPending = true ∧ swapping.losesSlots 5 = true) ∧
    ∃ c1 c0 : Byte, (c1 ++ c0 : Half) = crc16 [0x10, 0, 0] :=
  ⟨⟨rfl, rfl⟩, rfl, ⟨rfl, rfl⟩, rfl, rfl, by decide +kernel, rfl, ⟨⟨rfl, rfl⟩, rfl, rfl, by decide +kernel⟩,
    (crc16 [0x10, 0, 0]).extractLsb' 8 8, (crc16 [0x10, 0, 0]).extractLsb' 0 8, by decide +kernel⟩

/-- The slot events of the two slots of the plan of `inCycle` are due. -/
theorem slotDue_inCycle (s : State) (hc : s.clockRunning = true) (hr : s.rstLow = false) (hf : s.bus.slotInFlight = none) :
    (inCycle s 0).slotDue 0 (.stream 5) ∧ (inCycle s 1).slotDue 1 .idle :=
  ⟨⟨⟨hc, hr⟩, rfl, hf, rfl, rfl, 2, rfl, by decide⟩, ⟨⟨hc, hr⟩, rfl, hf, rfl, rfl, 2, rfl, by decide⟩⟩

theorem test_witness_SlotEventIdlesOrHolds :
    (inCycle (opened (aStream .starved)) 0).slotDue 0 (.stream 5) ∧ (inCycle (opened (aStream .starved)) 1).slotDue 1 .idle ∧
    (inCycle (opened (aStream .starved)) 0).opening 5 = some (aStream .starved) ∧ (inCycle State.reset 0).opening 5 = none ∧
    (inCycle (opened (aStream .starved)) 0).bus.state ≠ .stopped ∧ (inCycle (opened (aStream .starved)) 0).pending = [] ∧
    ∃ c1 c0 : Byte, (c1 ++ c0 : Half) = crc16 [3, 0, 0, 0, 0, 0, 0] :=
  ⟨(slotDue_inCycle _ rfl rfl rfl).1, (slotDue_inCycle _ rfl rfl rfl).2, opening_opened _ [], by decide +kernel, by decide, rfl,
    (crc16 [3, 0, 0, 0, 0, 0, 0]).extractLsb' 8 8, (crc16 [3, 0, 0, 0, 0, 0, 0]).extractLsb' 0 8, by decide +kernel⟩

/-- A cycle with stream 5 open and the entry of its play position in the ring. -/
def visiting (o : Opening) (held : Bool) : State :=
  inCycle { opened o with ring := { State.reset.ring with entries := [(0, { value := 7, tag := 0x100, held := held })] } } 0

theorem visiting_ok (o : Opening) (held : Bool) :
    (visiting o held).slotDue 0 (.stream 5) ∧ (visiting o held).opening 5 = some o :=
  ⟨(slotDue_inCycle _ rfl rfl rfl).1, opening_opened _ []⟩

theorem test_witness_FreshVisitPlaysSample :
    (visiting (aStream .playing) true).slotDue 0 (.stream 5) ∧
    (visiting (aStream .playing) true).opening 5 = some (aStream .playing) ∧ (aStream .playing).due 0x100 0 ∧
    ((visiting (aStream .playing) true).ring.read 0).freshFor 0x100 :=
  ⟨(visiting_ok _ _).1, (visiting_ok _ _).2, ⟨rfl, by decide⟩, ⟨rfl, rfl⟩⟩

theorem test_witness_StaleVisitSubstitutesAndStarves :
    (visiting (aStream .playing) false).slotDue 0 (.stream 5) ∧
    (visiting (aStream .playing) false).opening 5 = some (aStream .playing) ∧ (aStream .playing).due 0x100 0 ∧
    ¬ ((visiting (aStream .playing) false).ring.read 0).freshFor 0x100 :=
  ⟨(visiting_ok _ _).1, (visiting_ok _ _).2, ⟨rfl, by decide⟩, fun h => absurd h.1 (by decide)⟩

theorem test_witness_StaleVisitEndsDrain :
    (visiting (aStream .draining) false).slotDue 0 (.stream 5) ∧
    (visiting (aStream .draining) false).opening 5 = some (aStream .draining) ∧ (aStream .draining).due 0x100 0 ∧
    ¬ ((visiting (aStream .draining) false).ring.read 0).freshFor 0x100 :=
  ⟨(visiting_ok _ _).1, (visiting_ok _ _).2, ⟨rfl, by decide⟩, fun h => absurd h.1 (by decide)⟩

/-- The check bytes of a return frame from station 5, channel 2. -/
theorem test_witness_ReturnClassifiedByItsCheckAndAddress :
    (∃ c1 c0 : Byte, (c1 ++ c0 : Half) = crc16 [5, 2, 0, 0, 0, 0, 1]) ∧ (0#8 ++ 0#8 : Half) ≠ crc16 [5, 2, 0, 0, 0, 0, 1] ∧
    ((5 : Byte).toNat = (aSlot 0).station ∧ (2 : Byte).toNat = (aSlot 0).channel) ∧ (5 : Byte).toNat ≠ (idleSlot 0).station :=
  ⟨⟨(crc16 [5, 2, 0, 0, 0, 0, 1]).extractLsb' 8 8, (crc16 [5, 2, 0, 0, 0, 0, 1]).extractLsb' 0 8, by decide +kernel⟩,
    by decide +kernel, by decide, by decide⟩

theorem test_witness_UnattributedOutcomeOnlyCounts :
    (flying (inCycle State.reset 1) (aSlot 0)).inService ∧
    (flying (inCycle State.reset 1) (aSlot 0)).bus.slotInFlight = some (aSlot 0) ∧
    ((flying (inCycle State.reset 1) (aSlot 0)).bus.slotCount = some 2 ∧
      (flying (inCycle State.reset 1) (aSlot 0)).bus.nextSlot < 2) ∧
    ((idleSlot 0).target = none ∧ classifyReturn (idleSlot 0) none = .missing ∧ classifyReturn (idleSlot 0) (some []) ≠ .missing) ∧
    ((aSlot 0).target = some (5, 0) ∧ (flying (inCycle State.reset 1) (aSlot 0)).opening 5 = none) :=
  ⟨⟨rfl, rfl⟩, rfl, ⟨rfl, by decide⟩, ⟨rfl, rfl, by decide⟩, ⟨rfl, by decide +kernel⟩⟩

theorem test_witness_AttributedOutcomeCountsAndCollects :
    (∀ batch reports buffer stalled,
      (flying (inCycle (collectingAt batch reports buffer stalled) 1) (aSlot 0)).inService ∧
      (flying (inCycle (collectingAt batch reports buffer stalled) 1) (aSlot 0)).opening 5 =
        some { aStream .playing with collectBatch := batch } ∧
      ((flying (inCycle (collectingAt batch reports buffer stalled) 1) (aSlot 0)).stream 5).generation = 0) ∧
    (aSlot 0).target = some (5, 0) ∧
    (flying (inCycle (collectingAt 2 12 1 []) 1) (aSlot 0)).bus.slotInFlight = some (aSlot 0) ∧
    (inCycle (collectingAt 2 12 1 []) 1).bus.slotCount = some 2 ∧ (inCycle (collectingAt 2 12 1 []) 1).bus.nextSlot < 2 ∧
    2 ≤ ((collectingAt 2 12 1 []).coll.buffers.at 5 ++ records 1).length ∧ 12 ≤ (collectingAt 2 12 1 []).coll.queue.length ∧
    (collectingAt 2 11 1 []).coll.queue.length < 12 ∧ 5 ∈ (collectingAt 2 12 2 [5]).coll.stallList := by
  refine ⟨fun batch reports buffer stalled => ⟨⟨rfl, rfl⟩, opening_opened _ [], ?_⟩, rfl, rfl, rfl, by decide, by decide +kernel,
    by decide, by decide, by decide⟩
  show ((opened _).stream 5).generation = 0
  rw [opened, State.generation_withOpening]
  decide +kernel

theorem test_witness_LastOutcomeEndsCycleOrStopsBus :
    (flying (inCycle State.reset 2) (idleSlot 1)).inService ∧
    (flying (inCycle State.reset 2) (idleSlot 1)).bus.slotInFlight = some (idleSlot 1) ∧
    (flying (inCycle State.reset 2) (idleSlot 1)).bus.slotCount = some 2 ∧
    2 ≤ (flying (inCycle State.reset 2) (idleSlot 1)).bus.nextSlot ∧
    (∃ u, exec (.slotOutcome none) { flying (inCycle State.reset 2) (idleSlot 1) with
      bus := { (flying (inCycle State.reset 2) (idleSlot 1)).bus with slotCount := some 3 } } = .next u) ∧
    (inCycle State.reset 2).bus.state ≠ .halting ∧
    (let s := flying (inCycle (opened (aStream .draining)) 2) (idleSlot 1);
      let h : State := { s with bus := { s.bus with state := .halting } };
      h.inService ∧ h.bus.slotInFlight = some (idleSlot 1) ∧ h.bus.slotCount = some 2 ∧ h.isDraining 5 = true ∧
        h.bus.state = .halting) :=
  ⟨⟨rfl, rfl⟩, rfl, rfl, by decide, ⟨_, rfl⟩, by decide, ⟨rfl, rfl⟩, rfl, rfl, by decide +kernel, rfl⟩

theorem test_witness_BundleNotPlacedIsCounted :
    (∀ o, (holding (opened o) bundleFrame).canTake bundleFrame [] ∧ (holding (opened o) bundleFrame).opening 5 = some o) ∧
    kindOf bundleFrame = 0x20 ∧ parseBundle bundleFrame = some bundleRequest ∧ bundleRequest.stream = 5 ∧
    (parseBundle [0x20, 0] = none ∧ tagOf [0x20, 0] = 0) ∧ (parseBundle [0x20, 1] = none ∧ tagOf [0x20, 1] ≠ 0) ∧
    (holding State.reset bundleFrame).opening 5 = none :=
  ⟨fun o => ⟨canTake_opened o _, opening_opened o _⟩, rfl, by decide, rfl, ⟨by decide, rfl⟩, ⟨by decide, by decide⟩,
    by decide +kernel⟩

/-- The bundle of `bundleFrame` meets stream 5 PRIMING, with the entry of sample 100H not held. -/
def bundling : State := holding { (visiting (aStream .priming) false) with bus := State.reset.bus } bundleFrame

theorem test_witness_BundleClassifiedInOneClaim :
    bundling.classifies bundleFrame [] bundleRequest (aStream .priming) ∧ (aStream .priming).phase = .priming :=
  ⟨⟨canTake_holding rfl rfl rfl (by decide), rfl, by decide, opening_opened _ [], by decide, by decide,
    ⟨.inr (.inl rfl), rfl⟩, by decide⟩, rfl⟩

theorem test_witness_PlacedSamplesAreWrittenAtTheirIndex :
    bundling.classifies bundleFrame [] bundleRequest (aStream .priming) ∧ 1 < bundleRequest.values.length ∧
    bundling.classOf (aStream .priming) 0x100 (bundleRequest.seqAt 1) = .placed ∧
    bundling.classOf (aStream .priming) 0x100 (bundleRequest.seqAt 0) = .late ∧
    (aStream .priming).ringEntry ((bundleRequest.seqAt 1).toNat % 64) = some 0 :=
  ⟨test_witness_BundleClassifiedInOneClaim.1, by decide, by decide +kernel, by decide +kernel, by decide⟩

/-- The engine has voided `v` blocks of stream 5, which awaits its OPEN. -/
def sweepingAt (v : Nat) : State :=
  ((opened (aStream .sweeping)).withRing { State.reset.ring with engine := .busy 5 v }).withReq
    { State.reset.req with pendingTable := [{ tag := 3, job := .openOf 5 }] }

theorem opening_sweepingAt (v : Nat) : (sweepingAt v).opening 5 = some (aStream .sweeping) := by
  simp [sweepingAt, opened]

theorem test_witness_BlockVoidedAndSweepCompleted :
    State.reset.inService ∧ State.reset.ring.engine = .idle ∧
    (∀ v, (sweepingAt v).inService ∧ (sweepingAt v).ring.engine = .busy 5 v ∧
      (sweepingAt v).opening 5 = some (aStream .sweeping)) ∧
    ((aStream .sweeping).blockMap[0]? = some 0 ∧ 0 + 1 ≠ (aStream .sweeping).blockMap.length) ∧
    ((aStream .sweeping).blockMap[1]? = some 1 ∧ 1 + 1 = (aStream .sweeping).blockMap.length) ∧
    (sweepingAt 1).req.pendingTable.find? (·.isOf 5) = some { tag := 3, job := .openOf 5 } :=
  ⟨⟨rfl, rfl⟩, rfl, fun _ => ⟨⟨rfl, rfl⟩, rfl, opening_sweepingAt _⟩, by decide, by decide, by decide +kernel⟩

theorem test_witness_ReportPickedAndStallReleased :
    (collectingAt 2 12 2 [5]).inService ∧ (collectingAt 2 12 2 [5]).link.tx = .idle ∧
    (collectingAt 2 12 2 [5]).coll.queue = aReport :: List.replicate 11 aReport ∧
    (collectingAt 2 12 2 [5]).req.replyQueue = [] ∧ (collectingAt 2 12 2 [5]).req.link.flag = false ∧
    (∀ i, ((collectingAt 2 12 2 [5]).noticesOf i).state.flag = false ∧
      ((collectingAt 2 12 2 [5]).noticesOf i).discard.flag = false ∧
      ((collectingAt 2 12 2 [5]).noticesOf i).silent.flag = false) ∧
    (collectingAt 2 12 2 [5]).coll.stallList = 5 :: [] ∧ (collectingAt 2 1 0 []).coll.stallList = [] :=
  ⟨⟨rfl, rfl⟩, rfl, rfl, rfl, rfl, by decide +kernel, rfl, rfl⟩

theorem test_witness_ReplyPickedBeforeNotices :
    (loaded State.reset 1 0).inService ∧ (loaded State.reset 1 0).link.tx = .idle ∧
    (loaded State.reset 1 0).req.replyQueue =
      { tag := 1, kind := 1, status := .done, stream := 0xFF, result := .none } :: [] ∧
    ¬ ((loaded State.reset 1 0).link.sinceReport = 4 ∧ (loaded State.reset 1 0).coll.queue ≠ []) :=
  ⟨⟨rfl, rfl⟩, rfl, rfl, by decide⟩

/-- A STATE notice of stream 5 waits, and after it one of stream 2. -/
def notified : State :=
  let n : StreamNotices := { state := { flag := true, count := 1 } }
  { State.reset with
    link := { State.reset.link with lastNotice := 4 }
    req := { State.reset.req with notices := (State.reset.req.notices.put 5 n).put 2 n } }

theorem test_witness_NoticePickedInRound :
    notified.inService ∧ notified.link.tx = .idle ∧ notified.req.replyQueue = [] ∧
    ¬ (notified.link.sinceReport = 4 ∧ notified.coll.queue ≠ []) ∧ notified.req.link.flag = false ∧
    (notified.noticesOf 5).state.flag = true ∧
    (∀ j : StreamId, (j - (notified.link.lastNotice + 1)).val < (5 - (notified.link.lastNotice + 1)).val →
      ¬ ((notified.noticesOf j).state.flag = true ∨ (notified.noticesOf j).discard.flag = true ∨
        (notified.noticesOf j).silent.flag = true)) ∧
    (State.reset.linkRaised.req.link.flag = true ∧ State.reset.linkRaised.inService) :=
  ⟨⟨rfl, rfl⟩, rfl, rfl, by decide, rfl, by decide +kernel, by decide +kernel, rfl, rfl, rfl⟩

theorem test_witness_FrameSentFreesTransmitter :
    State.reset.inService ∧ State.reset.link.tx = .idle ∧
    ({ State.reset with link := { State.reset.link with tx := .sending [0xB4] } } : State).link.tx = .sending [0xB4] ∧
    ((loaded State.reset 1 0).req.replyQueue ≠ [] ∧ State.reset.req.replyQueue = [] ∧ State.reset.req.link.flag = false ∧
      State.reset.coll.queue = [] ∧ ∀ i, (State.reset.noticesOf i).state.flag = false ∧
        (State.reset.noticesOf i).discard.flag = false ∧ (State.reset.noticesOf i).silent.flag = false) ∧
    (State.reset.link.rate = some .r1 ∧ State.reset.rstLow = false ∧ LinkRate.r1.edge 0 ≤ 0 ∧ 49 < LinkRate.r1.edge 1) ∧
    ∃ c1 c0 : Byte, (c1 ++ c0 : Half) = crc16 [2, 1, 7] :=
  ⟨⟨rfl, rfl⟩, rfl, rfl, ⟨by decide, rfl, rfl, rfl, by decide +kernel⟩, ⟨rfl, rfl, by decide, by decide⟩, (crc16 [2, 1, 7]).extractLsb' 8 8, (crc16 [2, 1, 7]).extractLsb' 0 8,
    by decide +kernel⟩

theorem test_witness_GenerationChangesOnlyAtOpenOrPowerOn : ∃ t, exec .openStream (holding State.reset openFrame) = .next t :=
  ⟨_, rfl⟩

/-! ## A state with an open stream that holds every law together -/

/-- Stream 5 PLAYING with one fresh sample, 100H at ring index 0. -/
def keptStream : Opening := { aStream .playing with freshCount := 1 }

/-- The part with that stream open, its blocks taken, its plan active and a byte waiting. -/
def kept : State :=
  { (opened keptStream) with
    ring := { State.reset.ring with
      entries := (List.range 64).map fun k => (k, { value := 0, tag := 0x100, held := decide (k = 0) })
      freeBlocks := (List.finRange 256).drop 2 }
    plans := { active := [.stream 5, .idle], staged := [], swapPending := false }
    pending := [.syncByte] }

theorem opening_kept (j : StreamId) : kept.opening j = if j = 5 then some keptStream else none := by
  show (opened keptStream).opening j = _
  simp only [opened, State.opening_withOpening]
  split
  · rfl
  · show (State.reset.streams.at j).opening = none
    simp [State.reset]

theorem kept_unique {j : StreamId} {o : Opening} (h : kept.opening j = some o) : j = 5 ∧ o = keptStream := by
  rw [opening_kept] at h
  split at h
  · next e => exact ⟨e, by simpa using h.symm⟩
  · exact absurd h (by simp)

theorem test_witness_EveryCommandAnswersNext : ∃ t, step kept = .next t := ⟨_, rfl⟩

theorem test_witness_EveryStepKeepsCapacities :
    kept.ring.wf ∧ kept.repliesFit ∧ kept.queuesFit ∧ kept.req.handling = none :=
  ⟨by decide +kernel, by decide, by decide, rfl⟩

theorem test_witness_EveryStepKeepsPairsDistinct :
    kept.pairsDistinct ∧ kept.opening 5 = some keptStream ∧ (kept.after .syncByte).opening 5 = some keptStream ∧
    ((kept.after .syncByte).stream 5).generation = (kept.stream 5).generation := by
  refine ⟨fun i j oi oj hi hj _ _ => ?_, opening_kept 5, by decide +kernel, by decide +kernel⟩
  rw [(kept_unique hi).1, (kept_unique hj).1]

theorem test_witness_EveryStepKeepsBlocksOnce : kept.blocksOnce ∧ kept.ringsShaped := by
  refine ⟨?_, fun i o h => ?_⟩
  · unfold State.blocksOnce
    decide +kernel
  · rw [(kept_unique h).2]
    exact ⟨.inr (.inl rfl), rfl⟩

theorem test_witness_EveryStepKeepsMissRuns : kept.missRunsOk := by
  intro i o h
  rw [(kept_unique h).2]
  unfold Opening.missOk
  decide

theorem kept_notSweeping (i : StreamId) : ¬ kept.isSweeping i := by
  rintro ⟨o, h, hp⟩
  rw [(kept_unique h).2] at hp
  exact absurd hp (by decide)

theorem test_witness_EveryStepKeepsSweepQueue : kept.sweepsOk := by
  refine ⟨List.nodup_nil, fun i => ⟨fun h => absurd h (by exact List.not_mem_nil), fun h => absurd h.1 (kept_notSweeping i)⟩,
    fun i h => ?_, fun _ => rfl⟩
  obtain ⟨v, hv⟩ := h
  exact absurd hv (by exact nofun)

theorem test_witness_EveryStepKeepsPlansAndBus : kept.plansOk ∧ kept.slotsCounted ∧ kept.busOk ∧ kept.drainsOk := by
  refine ⟨⟨⟨by decide, by decide +kernel, by decide⟩, ⟨by decide, by decide +kernel, by decide⟩, by decide, by decide⟩,
    fun i o h => ?_, ?_, fun _ i o h => ?_⟩
  · rw [(kept_unique h).1, (kept_unique h).2]
    decide
  · exact ⟨fun _ => ⟨rfl, rfl, rfl, rfl⟩, fun h => absurd rfl h, nofun, rfl, nofun, nofun⟩
  · rw [(kept_unique h).2]
    decide

theorem test_witness_EveryStepKeepsNotices : kept.noticesOk := by
  unfold State.noticesOk NoticeCell.ok
  decide +kernel

theorem test_witness_EveryStepKeepsStallList : kept.stallsOk := by
  refine ⟨List.nodup_nil, fun i => ⟨fun h => absurd h (by exact List.not_mem_nil), fun h => ?_⟩, fun h => absurd rfl h, by decide,
    by decide +kernel, fun i o h => ?_, by decide +kernel⟩
  · obtain ⟨o, ho, _, hb⟩ := h
    have he : kept.coll.buffers.at i = [] := PerStream.at_replicate _ i
    rw [he, (kept_unique ho).2] at hb
    exact absurd hb (by decide)
  · rw [(kept_unique h).2]
    exact ⟨by decide, fun hb => absurd hb (by decide)⟩

theorem test_witness_EveryStepKeepsPendingTable : kept.pendingOk := by
  refine ⟨nofun, fun i h => ?_, rfl, rfl⟩
  obtain ⟨o, ho, hp⟩ := h
  rw [(kept_unique ho).2] at hp
  exact absurd hp (by decide)

theorem kept_ringLaws : kept.ringLaws keptStream := by
  refine ⟨fun x hx hh => ?_, by decide +kernel⟩
  have hx : x < 64 := hx
  have h0 : ∀ k < 64, kept.heldAt keptStream k = true → k = 0 := by decide +kernel
  rw [h0 x hx hh]
  exact ⟨0x100, 0, rfl, by decide, by decide +kernel, by decide +kernel, by decide +kernel⟩

theorem test_witness_EveryStepKeepsRingLaws : kept.ringsShaped ∧ kept.blocksOnce ∧ kept.sweepsOk ∧ kept.contentsOk := by
  refine ⟨test_witness_EveryStepKeepsBlocksOnce.2, test_witness_EveryStepKeepsBlocksOnce.1,
    test_witness_EveryStepKeepsSweepQueue, fun i o h _ => ?_, fun i v o h => absurd h (by exact nofun)⟩
  rw [(kept_unique h).2]
  exact kept_ringLaws

end Sys2Proof.Tests
end

section
/-! SUPPORT. What a command can do to the stream records, the plans and the bus: nothing, a quiet change, or one of the
acts listed once in State.acts. -/

namespace Sys2Proof.Machine

/-! ## States alike, and quiet changes -/

/-- The stream records, the plans and the bus are the same. -/
structure State.alike (s t : State) : Prop where
  streams : t.streams = s.streams
  plans : t.plans = s.plans
  bus : t.bus = s.bus

theorem State.alike.refl (s : State) : s.alike s := ⟨rfl, rfl, rfl⟩

theorem State.alike.trans {s t u : State} (h : s.alike t) (g : t.alike u) : s.alike u :=
  ⟨g.streams.trans h.streams, g.plans.trans h.plans, g.bus.trans h.bus⟩

theorem State.alike.stream {s t : State} (h : s.alike t) (i : StreamId) : t.stream i = s.stream i := by
  unfold State.stream
  rw [h.streams]

theorem State.alike.opening {s t : State} (h : s.alike t) (i : StreamId) : t.opening i = s.opening i := by
  unfold State.opening
  rw [h.stream]

/-- The pair and the ring of an open stream are the same (R3, R27). -/
structure Opening.sameRing (p o : Opening) : Prop where
  station : p.station = o.station
  channel : p.channel = o.channel
  ringSize : p.ringSize = o.ringSize
  blockMap : p.blockMap = o.blockMap

theorem Opening.sameRing.trans {p q o : Opening} (h : p.sameRing q) (g : q.sameRing o) : p.sameRing o :=
  ⟨h.station.trans g.station, h.channel.trans g.channel, h.ringSize.trans g.ringSize, h.blockMap.trans g.blockMap⟩

/-- A quiet change: plans, bus and generations stay; no stream opens; one that stays open keeps its pair, its ring and its
active slots, and becomes DRAINING only on a bus that is not STOPPED (R11). -/
structure State.quiet (s t : State) : Prop where
  plans : t.plans = s.plans
  bus : t.bus = s.bus
  generation : ∀ i, (t.stream i).generation = (s.stream i).generation
  opening : ∀ i p, t.opening i = some p → ∃ o, s.opening i = some o ∧ p.sameRing o ∧ p.activeSlots = o.activeSlots ∧
    (p.phase = .draining → o.phase = .draining ∨ s.bus.state ≠ .stopped)

theorem State.alike.quiet {s t : State} (h : s.alike t) : s.quiet t where
  plans := h.plans
  bus := h.bus
  generation i := by rw [h.stream]
  opening i p hp := ⟨p, by rw [← h.opening, hp], ⟨rfl, rfl, rfl, rfl⟩, rfl, .inl⟩

theorem State.quiet.refl (s : State) : s.quiet s := (State.alike.refl s).quiet

theorem State.quiet.trans {s t u : State} (h : s.quiet t) (g : t.quiet u) : s.quiet u where
  plans := g.plans.trans h.plans
  bus := g.bus.trans h.bus
  generation i := (g.generation i).trans (h.generation i)
  opening i p hp := by
    obtain ⟨q, hq, hpq, hslots, hdrain⟩ := g.opening i p hp
    obtain ⟨o, ho, hqo, hslots', hdrain'⟩ := h.opening i q hq
    refine ⟨o, ho, hpq.trans hqo, hslots.trans hslots', fun hd => ?_⟩
    rcases hdrain hd with hd | hd
    · exact hdrain' hd
    · exact .inr (h.bus ▸ hd)

/-- A change of blocks other than the records, the plans and the bus, after a quiet one, is quiet. -/
theorem State.quiet.alike {s t u : State} (h : s.quiet t) (g : t.alike u) : s.quiet u := h.trans g.quiet

theorem State.quiet_ite {s t u : State} {c : Prop} [Decidable c] (ht : s.quiet t) (hu : s.quiet u) :
    s.quiet (if c then t else u) := by
  split
  · exact ht
  · exact hu

theorem State.quiet_onlyIf {s t : State} (b : Bool) (h : s.quiet t) : s.quiet (s.onlyIf b t) := State.quiet_ite h (.refl s)

/-! ## The named updates -/

namespace State.quiet

variable {s t : State}

theorem withRing (h : s.quiet t) (r : RingStore) : s.quiet (t.withRing r) := h.alike ⟨rfl, rfl, rfl⟩
theorem withColl (h : s.quiet t) (c : Collector) : s.quiet (t.withColl c) := h.alike ⟨rfl, rfl, rfl⟩
theorem withLink (h : s.quiet t) (l : FeedLink) : s.quiet (t.withLink l) := h.alike ⟨rfl, rfl, rfl⟩
theorem withReq (h : s.quiet t) (u : RequestUnit) : s.quiet (t.withReq u) := h.alike ⟨rfl, rfl, rfl⟩
theorem withNotices (h : s.quiet t) (i : StreamId) (n : StreamNotices) : s.quiet (t.withNotices i n) := h.withReq _
theorem withGlobals (h : s.quiet t) (g : GlobalCounters) : s.quiet (t.withGlobals g) := h.withReq _
theorem replyTo (h : s.quiet t) (f : Frame) (status : Status) (result : ReplyResult) :
    s.quiet (t.replyTo f status result) := h.withReq _
theorem refuse (h : s.quiet t) (f : Frame) (status : Status) : s.quiet (t.refuse f status) := h.replyTo ..
theorem defer (h : s.quiet t) (f : Frame) (job : PendingJob) : s.quiet (t.defer f job) := h.withReq _

/-- A record with its generation kept, closed or with its pair, ring, slots and DRAINING as a quiet change leaves them. -/
theorem withStream (h : s.quiet t) {i : StreamId} {r : StreamRec} (hg : r.generation = (t.stream i).generation)
    (ho : ∀ p, r.opening = some p → ∃ o, t.opening i = some o ∧ p.sameRing o ∧ p.activeSlots = o.activeSlots ∧
      (p.phase = .draining → o.phase = .draining ∨ t.bus.state ≠ .stopped)) : s.quiet (t.withStream i r) :=
  h.trans
    { plans := rfl
      bus := rfl
      generation := fun j => by
        rw [State.stream_withStream]
        split
        · next hj => rw [hj, hg]
        · rfl
      opening := fun j p hp => by
        rw [State.opening_withStream] at hp
        split at hp
        · next hj => exact hj ▸ ho p hp
        · exact (State.quiet.refl t).opening j p hp }

theorem withCounters (h : s.quiet t) (i : StreamId) (c : StreamCounters) : s.quiet (t.withCounters i c) :=
  h.withStream rfl ((State.quiet.refl t).opening i)

/-- The open fields of a stream taken away. -/
theorem withOpening_none (h : s.quiet t) (i : StreamId) : s.quiet (t.withOpening i none) := h.withStream rfl nofun

/-- An open record rewritten with its pair, ring and active slots kept, and DRAINING only if it was or the bus runs. -/
theorem withOpening (h : s.quiet t) {i : StreamId} {o p : Opening} (ho : t.opening i = some o) (hr : p.sameRing o)
    (hs : p.activeSlots = o.activeSlots) (hd : p.phase = .draining → o.phase = .draining ∨ t.bus.state ≠ .stopped) :
    s.quiet (t.withOpening i (some p)) :=
  h.withStream rfl fun _ hp => by
    cases hp
    exact ⟨o, ho, hr, hs, hd⟩

/-! ## Notices, phases and closes -/

theorem raiseNotice (h : s.quiet t) (i : StreamId) (k : NoticeKind) (n : Nat) : s.quiet (t.raiseNotice i k n) := by
  unfold State.raiseNotice
  split
  · exact h
  · exact State.quiet_ite (h.withNotices ..) h

theorem starve (h : s.quiet t) {i : StreamId} {o : Opening} (ho : t.opening i = some o) : s.quiet (t.starve i o) := by
  have hphase : s.quiet (t.withOpening i (some { o with phase := .starved })) :=
    h.withOpening ho ⟨rfl, rfl, rfl, rfl⟩ rfl nofun
  exact (hphase.withCounters ..).raiseNotice ..

theorem startPlaying (h : s.quiet t) {i : StreamId} {o : Opening} (ho : t.opening i = some o) :
    s.quiet (t.startPlaying i o) := by
  have hphase : s.quiet (t.withOpening i (some { o with phase := .playing })) :=
    h.withOpening ho ⟨rfl, rfl, rfl, rfl⟩ rfl nofun
  exact hphase.raiseNotice ..

/-- A close takes the stream's open fields away and leaves generations, plans and bus (R12). -/
theorem closeStream (h : s.quiet t) (i : StreamId) (drainEnded : Bool) : s.quiet (t.closeStream i drainEnded) := by
  cases ho : t.opening i with
  | none => rwa [State.closeStream_closed ho]
  | some o =>
    obtain ⟨hstreams, -, -, -, -, -, -, -, -, -, -, -, -, -, hplans, hbus, -⟩ := State.closeStream_closesTo ho drainEnded
    exact (h.withOpening_none i).alike ⟨hstreams, hplans, hbus⟩

end State.quiet

/-! ## The handlings that are quiet -/

/-- A request about an open stream is quiet if what it does to the open stream is. -/
theorem State.quiet_onOpen {s : State} {f : Frame} {b : Byte} {k : StreamId → Opening → State}
    (h : ∀ i o, s.opening i = some o → s.quiet (k i o)) : s.quiet (s.onOpen f b k) := by
  unfold State.onOpen
  split
  · exact (State.quiet.refl s).refuse ..
  · next i _ =>
    split
    · exact (State.quiet.refl s).refuse ..
    · next o ho => exact h i o ho

theorem quiet_handleHello (f : Frame) (s : State) : s.quiet (handleHello f s) := by
  unfold handleHello
  split
  · exact (State.quiet.refl s).refuse ..
  · exact (State.quiet.refl s).replyTo ..

theorem State.quiet_closeNow (s : State) (f : Frame) (i : StreamId) : s.quiet (s.closeNow f i) :=
  ((State.quiet.refl s).closeStream i false).replyTo ..

theorem quiet_handleCloseAtOnce (f : Frame) (s : State) : s.quiet (handleCloseAtOnce f s) := by
  unfold handleCloseAtOnce
  split
  · exact (State.quiet.refl s).refuse ..
  · exact State.quiet_onOpen fun i _ _ => s.quiet_closeNow f i

theorem State.quiet_drainOrClose {s : State} {i : StreamId} {o : Opening} (f : Frame) (ho : s.opening i = some o) :
    s.quiet (s.drainOrClose f i o) := by
  unfold State.drainOrClose
  split
  · exact s.quiet_closeNow f i
  · exact s.quiet_closeNow f i
  · exact s.quiet_closeNow f i
  · exact (State.quiet.refl s).refuse ..
  · split
    · exact s.quiet_closeNow f i
    · next hrun =>
      refine State.quiet_ite ((State.quiet.refl s).refuse ..) (State.quiet.defer ?_ ..)
      exact (State.quiet.refl s).withOpening ho ⟨rfl, rfl, rfl, rfl⟩ rfl fun _ => .inr fun hs => hrun (.inr hs)

theorem quiet_handleCloseWithDrain (f : Frame) (s : State) : s.quiet (handleCloseWithDrain f s) := by
  unfold handleCloseWithDrain
  split
  · exact (State.quiet.refl s).refuse ..
  · exact State.quiet_onOpen fun i o ho => State.quiet_drainOrClose f ho

theorem Opening.resumedPhase_ne_draining (o : Opening) : o.resumedPhase ≠ .draining := by
  unfold Opening.resumedPhase
  split <;> decide

theorem State.quiet_resumePlain {s : State} {i : StreamId} {o : Opening} (f : Frame) (ho : s.opening i = some o) :
    s.quiet (s.resumePlain f i o) := by
  refine State.quiet_ite (State.quiet.replyTo ?_ ..) ((State.quiet.refl s).replyTo ..)
  exact (State.quiet.refl s).withOpening ho ⟨rfl, rfl, rfl, rfl⟩ rfl fun hd => absurd hd o.resumedPhase_ne_draining

theorem quiet_handleResumeWithoutSequence (f : Frame) (s : State) : s.quiet (handleResumeWithoutSequence f s) := by
  unfold handleResumeWithoutSequence
  split
  · exact (State.quiet.refl s).refuse ..
  · exact State.quiet_onOpen fun i o ho => State.quiet_resumePlain f ho

theorem State.quiet_resumeAt {s : State} {i : StreamId} {o : Opening} (f : Frame) (start : Half) (ho : s.opening i = some o) :
    s.quiet (s.resumeAt f start i o) := by
  refine State.quiet_ite ((State.quiet.refl s).replyTo ..) (State.quiet_ite ((State.quiet.refl s).refuse ..)
    (State.quiet.defer (State.quiet.withRing ?_ _) ..))
  exact (State.quiet.refl s).withOpening ho ⟨rfl, rfl, rfl, rfl⟩ rfl nofun

theorem quiet_handleResumeWithStartSequence (f : Frame) (s : State) : s.quiet (handleResumeWithStartSequence f s) := by
  unfold handleResumeWithStartSequence
  split
  · exact (State.quiet.refl s).refuse ..
  · exact (State.quiet.refl s).refuse ..
  · exact State.quiet_onOpen fun i o ho => State.quiet_resumeAt f _ ho

theorem State.quiet_retuneBatch (s : State) (i : StreamId) (old new : Nat) : s.quiet (s.retuneBatch i old new) := by
  obtain ⟨n, d, h⟩ := s.retuneBatch_frame i old new
  rw [h]
  exact ((State.quiet.refl s).withCounters ..).withColl _

theorem State.quiet_comparePlay (s : State) (i : StreamId) : s.quiet (s.comparePlay i) := by
  unfold State.comparePlay
  split
  · exact .refl s
  · next o ho => exact State.quiet_ite ((State.quiet.refl s).startPlaying ho) (.refl s)

theorem State.quiet_compareStarve (s : State) (i : StreamId) : s.quiet (s.compareStarve i) := by
  unfold State.compareStarve
  split
  · exact .refl s
  · next o ho => exact State.quiet_ite ((State.quiet.refl s).starve ho) (.refl s)

theorem State.quiet_applyTune {s : State} {i : StreamId} {o : Opening} (q : TuneRequest) (ho : s.opening i = some o) :
    s.quiet (s.applyTune q i o) := by
  have hfields : s.quiet (s.withOpening i (some (o.tuned q))) :=
    (State.quiet.refl s).withOpening ho ⟨rfl, rfl, rfl, rfl⟩ rfl .inl
  unfold State.applyTune State.compareTuned
  exact (((hfields.withNotices ..).trans (State.quiet_retuneBatch ..)).trans (State.quiet_comparePlay ..)).trans
    (State.quiet_compareStarve ..)

theorem quiet_handleTune (f : Frame) (s : State) : s.quiet (handleTune f s) := by
  unfold handleTune
  split
  · exact (State.quiet.refl s).refuse ..
  · refine State.quiet_onOpen fun i o ho => ?_
    exact State.quiet_ite ((State.quiet.refl s).refuse ..) (State.quiet_ite ((State.quiet.refl s).refuse ..)
      ((State.quiet_applyTune _ ho).replyTo ..))

theorem quiet_handleQuery (f : Frame) (s : State) : s.quiet (handleQuery f s) := by
  unfold handleQuery
  split
  · exact (State.quiet.refl s).refuse ..
  · split
    · exact (State.quiet.refl s).refuse ..
    · exact (State.quiet.refl s).replyTo ..

theorem State.quiet_countersOf (s : State) (f : Frame) (clear : Bool) (target : CountersTarget) :
    s.quiet (s.countersOf f clear target) := by
  cases target with
  | stream i => exact (State.quiet_ite ((State.quiet.refl s).withCounters ..) (.refl s)).replyTo ..
  | global => exact (State.quiet_ite (((State.quiet.refl s).withGlobals _).withLink _) (.refl s)).replyTo ..

theorem quiet_handleCounters (f : Frame) (s : State) : s.quiet (handleCounters f s) := by
  unfold handleCounters
  split
  · exact (State.quiet.refl s).refuse ..
  · split
    · exact (State.quiet.refl s).refuse ..
    · exact s.quiet_countersOf ..

theorem State.quiet_flushStream (s : State) (f : Frame) (i : StreamId) (o : Opening) : s.quiet (s.flushStream f i o) :=
  State.quiet_ite ((State.quiet.refl s).refuse ..) (State.quiet_ite ((State.quiet.refl s).replyTo ..)
    (State.quiet_ite ((State.quiet.refl s).refuse ..) (((State.quiet.refl s).withColl _).replyTo ..)))

theorem quiet_handleFlush (f : Frame) (s : State) : s.quiet (handleFlush f s) := by
  unfold handleFlush
  split
  · exact (State.quiet.refl s).refuse ..
  · exact State.quiet_onOpen fun i o _ => s.quiet_flushStream f i o

theorem State.quiet_countBadForm (s : State) (f : Frame) (l : FeedLink) (status : Status) :
    s.quiet (if tagOf f = 0 then s.withLink l else s.refuse f status) :=
  State.quiet_ite ((State.quiet.refl s).withLink _) ((State.quiet.refl s).refuse ..)

theorem quiet_handleUnknownKind (f : Frame) (s : State) : s.quiet (handleUnknownKind f s) := s.quiet_countBadForm ..

theorem State.quiet.acknowledge {s t : State} (h : s.quiet t) (f : Frame) (i : StreamId) (status : Status) (n : PlaceCounts) :
    s.quiet (t.acknowledge f i status n) := State.quiet_ite h (h.replyTo ..)

theorem State.quiet_testStart (s : State) (i : StreamId) : s.quiet (s.testStart i) := by
  unfold State.testStart
  split
  · exact .refl s
  · next o ho => exact State.quiet_ite ((State.quiet.refl s).startPlaying ho) (.refl s)

theorem State.quiet_classifyBundle {s : State} {q : BundleRequest} {o : Opening} (f : Frame)
    (ho : s.opening q.stream = some o) : s.quiet (s.classifyBundle f q o) := by
  have hfields : s.quiet ((s.withRing (s.classified q o).2).withOpening q.stream
      (some { o with playPos := some (o.adopt q), freshCount := o.freshCount + (s.classified q o).1.placed })) :=
    ((State.quiet.refl s).withRing _).withOpening ho ⟨rfl, rfl, rfl, rfl⟩ rfl .inl
  have hplace : s.quiet (s.placeBundle q o) := hfields.withCounters ..
  have hstart := hplace.trans (State.quiet_testStart _ q.stream)
  unfold State.classifyBundle State.noteDiscards
  exact (State.quiet_ite hstart (hstart.raiseNotice ..)).acknowledge ..

theorem State.quiet_takeBundle (s : State) (f : Frame) (q : BundleRequest) : s.quiet (s.takeBundle f q) := by
  have hrefused : s.quiet (s.refuseBundle f q) := ((State.quiet.refl s).withCounters ..).acknowledge ..
  unfold State.takeBundle
  split
  · exact ((State.quiet.refl s).withGlobals _).acknowledge ..
  · next o ho =>
    cases o.phase with
    | sweeping => exact hrefused
    | draining => exact hrefused
    | priming => exact State.quiet_classifyBundle f ho
    | playing => exact State.quiet_classifyBundle f ho
    | starved => exact State.quiet_classifyBundle f ho

theorem quiet_handleBundle (f : Frame) (s : State) : s.quiet (handleBundle f s) := by
  unfold handleBundle
  split
  · exact s.quiet_countBadForm ..
  · exact s.quiet_takeBundle ..

/-! ## Sweeps, visits and outcomes -/

theorem State.quiet.sweepDone {s t : State} (h : s.quiet t) {i : StreamId} {o : Opening} (ho : t.opening i = some o) :
    s.quiet (t.sweepDone i o) := by
  have hswept : s.quiet (t.withOpening i (some o.swept)) := h.withOpening ho ⟨rfl, rfl, rfl, rfl⟩ rfl nofun
  exact (hswept.withReq _).withRing _

theorem State.quiet_voidNext (s : State) (i : StreamId) (voided : Nat) : s.quiet (s.voidNext i voided) := by
  unfold State.voidNext
  split
  · exact .refl s
  · next o ho =>
    split
    · exact .refl s
    · next b _ =>
      have hvoided := (State.quiet.refl s).withRing (s.ring.voidedOne i voided b)
      split
      · exact hvoided.sweepDone ((State.opening_withRing ..).trans ho)
      · exact hvoided

theorem State.quiet.staleVisit {s t : State} (h : s.quiet t) {i : StreamId} {o : Opening} (ho : t.opening i = some o) :
    s.quiet (t.staleVisit i o) := by
  have hfields : s.quiet (t.withOpening i (some o.afterStale)) := h.withOpening ho ⟨rfl, rfl, rfl, rfl⟩ rfl .inl
  have hstale := hfields.withCounters i (t.counters i).countSubstituted
  unfold State.staleVisit
  split
  · exact hstale.starve (by simp)
  · exact hstale

theorem State.quiet_consumingVisit {s : State} {i : StreamId} {o : Opening} (ho : s.opening i = some o) :
    s.quiet (s.consumingVisit i o) := by
  have hring : ∀ r, s.quiet (s.withRing r) := (State.quiet.refl s).withRing
  unfold State.consumingVisit
  split
  · next v r _ =>
    have hfields : s.quiet ((s.withRing r).withOpening i (some (o.afterFresh v))) :=
      (hring r).withOpening ho ⟨rfl, rfl, rfl, rfl⟩ rfl .inl
    exact hfields.withCounters ..
  · exact State.quiet_ite (((hring _).withCounters ..).closeStream ..) ((hring _).staleVisit ho)

theorem State.quiet_visited (s : State) (i : StreamId) : s.quiet (s.visited i) := by
  unfold State.visited
  split
  · exact .refl s
  · next o ho =>
    cases o.phase with
    | sweeping => exact .refl s
    | priming => exact .refl s
    | starved => exact .refl s
    | playing => exact State.quiet_consumingVisit ho
    | draining => exact State.quiet_consumingVisit ho

theorem State.quiet_markOutcome {s : State} {i : StreamId} {o : Opening} (x : ReturnOutcome) (ho : s.opening i = some o) :
    s.quiet (s.markOutcome i o x) := by
  have hrun : s.quiet (s.withOpening i (some { o with silentRun := silentRunAfter o.silentRun x })) :=
    (State.quiet.refl s).withOpening ho ⟨rfl, rfl, rfl, rfl⟩ rfl .inl
  have hmark := hrun.withCounters i ((s.counters i).countOutcome x)
  exact State.quiet_ite (hmark.raiseNotice ..) hmark

theorem State.quiet.handRecord {s t : State} (h : s.quiet t) (i : StreamId) (batch : Nat) (r : ReturnRecord) :
    s.quiet (t.handRecord i batch r) := by
  obtain ⟨c, d, hhand, -⟩ := t.handRecord_frame i batch r
  rw [hhand]
  exact (h.withCounters ..).withColl _

theorem State.quiet_takeOutcome (s : State) (r : SlotRecord) (x : ReturnOutcome) : s.quiet (s.takeOutcome r x) := by
  have hcount : s.quiet s.countOrphan := (State.quiet.refl s).withGlobals _
  unfold State.takeOutcome
  split
  · exact State.quiet_ite (.refl s) ((State.quiet.refl s).withGlobals _)
  · split
    · exact hcount
    · next o ho => exact State.quiet_ite ((State.quiet_markOutcome x ho).handRecord ..) hcount

end Sys2Proof.Machine
end

section
/-! SUPPORT. The acts: every change of records, plans or bus that is not quiet, one for each command that makes one; and
the inversion of exec and step into quiet changes and acts. -/

namespace Sys2Proof.Machine

/-- What a command does to records, plans and bus where it is not quiet, with the conditions under which it does. -/
inductive State.acts : Instr → State → State → Prop where
  | opens {s : State} {q : OpenRequest} {i : StreamId} (f : Frame) (accepted : s.openRefusal q i = none) :
      State.acts .openStream s (s.acceptOpen f q i)
  | powersOn (s : State) (cause : ResetCause) (rate1 rate0 : Bool) (rate : Option LinkRate) (rstLow : Bool) :
      State.acts (.powerOnReset cause rate1 rate0) s (s.powerOn rate rstLow)
  | resets (s : State) : State.acts .reset s (s.withReq s.req.emptyReplies.cancelAll).softReset
  | stages {s : State} {entries : List Byte} {p : Plan} (idle : s.plans.swapPending = false)
      (good : stagePlan entries s.bus.period = some p) : State.acts .stage s (s.withPlans { s.plans with staged := p })
  | swapsNow {s : State} (idle : s.plans.swapPending = false) (stopped : s.bus.state = .stopped) :
      State.acts .swap s s.applySwap
  | swapsLater {s : State} (staged : s.plans.staged ≠ []) (runs : s.bus.state ≠ .stopped) :
      State.acts .swap s (s.withPlans { s.plans with swapPending := true })
  | starts {s : State} (stopped : s.bus.state = .stopped) (active : s.plans.active ≠ []) :
      State.acts .start s (s.withBus s.bus.started)
  | haltsNow (s : State) : State.acts .halt s s.stopBus
  | haltsLater {s : State} (runs : s.bus.state = .running) (inCycle : s.bus.inProgress = true) :
      State.acts .halt s (s.withBus { s.bus with state := .halting })
  | setsPeriod {s : State} {p : Nat} (good : s.periodRefusal p = none) :
      State.acts .period s (s.withBus { s.bus with period := p })
  | beginsCycle {s : State} (time : Nat) (due : s.bus.cycleDue = true) : State.acts .cycleStart s (s.beginCycle time)
  | sendsSlot {s u : State} (visit : s.quiet u) (due : s.bus.slotDue = true) (command : Command) :
      State.acts .slotEvent s (u.withBus (s.bus.sent s.bus.nextSlot command))
  | endsSlot {s u : State} {r : SlotRecord} (ret : Option (List Byte)) (flies : s.bus.slotInFlight = some r)
      (taken : s.quiet u) : State.acts (.slotOutcome ret) s (u.withBus (u.bus.slotEnded r.index)).afterOutcome

/-- A command is quiet, or acts between states alike those before and after it. -/
def State.moves (c : Instr) (s t : State) : Prop :=
  s.quiet t ∨ ∃ u v, s.alike u ∧ State.acts c u v ∧ v.alike t

theorem State.acts.moves {c : Instr} {s t : State} (h : State.acts c s t) : s.moves c t :=
  .inr ⟨s, t, .refl s, h, .refl t⟩

/-- An act, and then its answer. -/
theorem State.acts.answered {c : Instr} {s v t : State} (h : State.acts c s v) (hv : v.alike t) : s.moves c t :=
  .inr ⟨s, v, .refl s, h, hv⟩

theorem State.alike_withReq (s : State) (u : RequestUnit) : s.alike (s.withReq u) := ⟨rfl, rfl, rfl⟩

/-! ## The handlings that act -/

theorem State.moves_refuse (c : Instr) (s : State) (f : Frame) (status : Status) : s.moves c (s.refuse f status) :=
  .inl ((State.quiet.refl s).refuse ..)

theorem State.moves_replyTo (c : Instr) (s : State) (f : Frame) (status : Status) (result : ReplyResult) :
    s.moves c (s.replyTo f status result) := .inl ((State.quiet.refl s).replyTo ..)

theorem moves_handleOpen (f : Frame) (s : State) : s.moves .openStream (handleOpen f s) := by
  unfold handleOpen
  split
  · exact s.moves_refuse ..
  · split
    · exact s.moves_refuse ..
    · split
      · exact s.moves_refuse ..
      · next haccepted => exact (State.acts.opens f haccepted).moves

theorem moves_handleReset (f : Frame) (s : State) : s.moves .reset (handleReset f s) := by
  unfold handleReset
  split
  · exact s.moves_refuse ..
  · exact (State.acts.resets s).answered (State.alike_withReq ..)

theorem moves_handleStage (f : Frame) (s : State) : s.moves .stage (handleStage f s) := by
  unfold handleStage
  split
  · exact s.moves_refuse ..
  · split
    · exact s.moves_refuse ..
    · next hidle =>
      split
      · exact s.moves_refuse ..
      · next hgood => exact (State.acts.stages (by simpa using hidle) hgood).answered (State.alike_withReq ..)

theorem moves_handleSwap (f : Frame) (s : State) : s.moves .swap (handleSwap f s) := by
  unfold handleSwap
  split
  · exact s.moves_refuse ..
  · split
    · exact s.moves_refuse ..
    · next hidle =>
      split
      · exact s.moves_refuse ..
      · next hstaged =>
        split
        · next hstopped =>
          exact (State.acts.swapsNow (by simpa using hidle) hstopped).answered (State.alike_withReq ..)
        · next hruns =>
          split
          · exact s.moves_refuse ..
          · exact (State.acts.swapsLater hstaged hruns).answered (State.alike_withReq ..)

theorem moves_handleStart (f : Frame) (s : State) : s.moves .start (handleStart f s) := by
  unfold handleStart
  split
  · exact s.moves_refuse ..
  · split
    · exact s.moves_refuse ..
    · exact s.moves_replyTo ..
    · next hstopped =>
      split
      · exact s.moves_refuse ..
      · next hactive => exact (State.acts.starts hstopped hactive).answered (State.alike_withReq ..)

theorem moves_handleHalt (f : Frame) (s : State) : s.moves .halt (handleHalt f s) := by
  unfold handleHalt
  split
  · exact s.moves_refuse ..
  · split
    · exact s.moves_replyTo ..
    · exact s.moves_refuse ..
    · next hruns =>
      split
      · next hcycle =>
        split
        · exact s.moves_refuse ..
        · exact (State.acts.haltsLater hruns hcycle).answered (State.alike_withReq ..)
      · exact (State.acts.haltsNow s).answered (State.alike_withReq ..)

theorem moves_handlePeriod (f : Frame) (s : State) : s.moves .period (handlePeriod f s) := by
  unfold handlePeriod
  split
  · exact s.moves_refuse ..
  · split
    · exact s.moves_refuse ..
    · next hgood => exact (State.acts.setsPeriod hgood).answered (State.alike_withReq ..)

/-- The take of a frame and the end of its handling are alike the states beside them. -/
theorem handleHead_moves {c : Instr} {handle : Frame → State → State}
    (h : ∀ (f : Frame) (s : State), s.moves c (handle f s)) {s t : State} (ht : handleHead c handle s = .next t) :
    s.moves c t := by
  rcases handleHead_cases c handle s with hnone | ⟨f, rest, -, -, hsome⟩
  · rw [hnone] at ht
    cases ht
    exact .inl (.refl s)
  · rw [hsome] at ht
    cases ht
    have hbegin : s.alike (s.beginHandling f) := ⟨rfl, rfl, rfl⟩
    have hend : (handle f (s.beginHandling f)).alike (handle f (s.beginHandling f)).endHandling := State.alike_withReq ..
    rcases h f (s.beginHandling f) with hquiet | ⟨u, v, hu, hact, hv⟩
    · exact .inl ((hbegin.quiet.trans hquiet).alike hend)
    · exact .inr ⟨u, v, hbegin.trans hu, hact, hv.trans hend⟩

/-! ## The events -/

theorem State.quiet.linkFault {s t : State} (h : s.quiet t) : s.quiet t.linkFault := h.withReq _

theorem State.quiet_takeLength (s : State) (b : Byte) (crc : Half) : s.quiet (s.takeLength b crc) :=
  State.quiet_ite ((State.quiet.refl s).withLink _)
    (State.quiet.linkFault (((State.quiet.refl s).withLink _).withLink _))

theorem State.quiet.offer {s t : State} (h : s.quiet t) (f : Frame) : s.quiet (t.offer f) :=
  State.quiet_ite (h.withLink _) (State.quiet.linkFault (h.withLink _))

theorem State.quiet_releaseStall (s : State) : s.quiet s.releaseStall := by
  unfold State.releaseStall
  split
  · exact .refl s
  · exact (State.quiet.refl s).withColl _

theorem State.quiet_pickOf (s : State) (choice : PickChoice) : s.quiet (s.pickOf choice) := by
  cases choice with
  | report =>
    show s.quiet s.pickReport
    unfold State.pickReport
    split
    · exact .refl s
    · exact ((((State.quiet.refl s).withColl _).trans (State.quiet_releaseStall _)).withLink _).withLink _
  | reply =>
    show s.quiet s.pickReply
    unfold State.pickReply
    split
    · exact .refl s
    · exact (((State.quiet.refl s).withReq _).withLink _).withLink _
  | linkNotice => exact (((State.quiet.refl s).withReq _).withLink _).withLink _
  | streamNotice i k => exact ((((State.quiet.refl s).withNotices ..).withLink _).withLink _).withLink _

theorem moves_powerOnReset (cause : ResetCause) (rate1 rate0 : Bool) {s t : State}
    (h : execPowerOnReset cause rate1 rate0 s = .next t) : s.moves (.powerOnReset cause rate1 rate0) t := by
  have hon : ∀ rate low, s.moves (.powerOnReset cause rate1 rate0) (s.powerOn rate low) :=
    fun rate low => (State.acts.powersOn s cause rate1 rate0 rate low).moves
  unfold execPowerOnReset at h
  cases h
  split
  · exact hon ..
  · exact hon ..
  · next ns =>
    rcases s.onlyIf_cases (s.powerOn none true) (decide (1000 ≤ ns)) with ⟨-, hlong⟩ | ⟨-, hshort⟩
    · rw [hlong]; exact hon ..
    · rw [hshort]; exact .inl (.refl s)

theorem moves_cycleStart {s t : State} (h : execCycleStart s = .next t) : s.moves .cycleStart t := by
  unfold execCycleStart at h
  cases h
  split
  · exact .inl (.refl s)
  · next time _ =>
    rcases s.onlyIf_cases (s.beginCycle time) (s.live && s.bus.cycleDue) with ⟨hdue, hstart⟩ | ⟨-, hnone⟩
    · rw [hstart]
      exact (State.acts.beginsCycle time (Bool.and_eq_true _ _ ▸ hdue).2).moves
    · rw [hnone]; exact .inl (.refl s)

theorem acts_runSlot {s : State} (hdue : s.bus.slotDue = true) (e : PlanEntry) :
    State.acts .slotEvent s (s.runSlot s.bus.nextSlot e) := by
  cases e with
  | idle => exact State.acts.sendsSlot (.refl s) hdue _
  | stream i => exact State.acts.sendsSlot (s.quiet_visited i) hdue _

theorem moves_slotEvent {s t : State} (h : execSlotEvent s = .next t) : s.moves .slotEvent t := by
  unfold execSlotEvent at h
  cases h
  split
  · exact .inl (.refl s)
  · next e _ =>
    rcases s.onlyIf_cases (s.runSlot s.bus.nextSlot e) (s.live && s.bus.slotDue) with ⟨hdue, hrun⟩ | ⟨-, hnone⟩
    · rw [hrun]
      exact (acts_runSlot (Bool.and_eq_true _ _ ▸ hdue).2 e).moves
    · rw [hnone]; exact .inl (.refl s)

theorem moves_slotOutcome (ret : Option (List Byte)) {s t : State} (h : execSlotOutcome ret s = .next t) :
    s.moves (.slotOutcome ret) t := by
  unfold execSlotOutcome at h
  cases h
  split
  · exact .inl (.refl s)
  · next r hflies =>
    rcases s.onlyIf_cases (s.endSlot r (classifyReturn r ret)) s.live with ⟨-, hend⟩ | ⟨-, hnone⟩
    · rw [hend]
      exact (State.acts.endsSlot ret hflies (s.quiet_takeOutcome r (classifyReturn r ret))).moves
    · rw [hnone]; exact .inl (.refl s)

/-- What a command can do to records, plans and bus: nothing but a quiet change, or its act. -/
theorem exec_moves {c : Instr} {s t : State} (h : exec c s = .next t) : s.moves c t := by
  have hframe : ∀ {handle : Frame → State → State}, (∀ (f : Frame) (s : State), s.quiet (handle f s)) →
      handleHead c handle s = .next t → s.moves c t := fun hq => handleHead_moves fun f s => .inl (hq f s)
  cases c with
  | powerOnReset cause rate1 rate0 => exact moves_powerOnReset cause rate1 rate0 h
  | rstRelease _ _ =>
    cases h
    exact .inl (State.quiet_onlyIf _ (State.alike.quiet ⟨rfl, rfl, rfl⟩))
  | syncByte => cases h; exact .inl (State.quiet_onlyIf _ ((State.quiet.refl s).withLink _))
  | huntByte b => cases h; exact .inl (State.quiet_onlyIf _ ((State.quiet.refl s).withLink _))
  | lengthByte b =>
    cases h
    refine .inl ?_
    split
    · exact State.quiet_onlyIf _ (s.quiet_takeLength ..)
    · exact .refl s
  | bodyByte b =>
    cases h
    refine .inl ?_
    split
    · exact State.quiet_onlyIf _ ((State.quiet.refl s).withLink _)
    · exact .refl s
  | highCheckByte b =>
    cases h
    refine .inl ?_
    split
    · exact State.quiet_onlyIf _ ((State.quiet.refl s).withLink _)
    · exact .refl s
  | lowCheckByte b =>
    cases h
    refine .inl ?_
    have hhunt : s.quiet (s.withRx .hunt) := (State.quiet.refl s).withLink _
    split
    · exact State.quiet_onlyIf _ (State.quiet_ite (hhunt.offer _) (State.quiet.linkFault (hhunt.withLink _)))
    · exact .refl s
  | interByteTimeout =>
    cases h
    exact .inl (State.quiet_onlyIf _ (State.quiet.linkFault (((State.quiet.refl s).withLink _).withLink _)))
  | hello => exact hframe quiet_handleHello h
  | openStream => exact handleHead_moves moves_handleOpen h
  | closeAtOnce => exact hframe quiet_handleCloseAtOnce h
  | closeWithDrain => exact hframe quiet_handleCloseWithDrain h
  | resumeWithoutSequence => exact hframe quiet_handleResumeWithoutSequence h
  | resumeWithStartSequence => exact hframe quiet_handleResumeWithStartSequence h
  | tune => exact hframe quiet_handleTune h
  | query => exact hframe quiet_handleQuery h
  | counters => exact hframe quiet_handleCounters h
  | flush => exact hframe quiet_handleFlush h
  | stage => exact handleHead_moves moves_handleStage h
  | swap => exact handleHead_moves moves_handleSwap h
  | start => exact handleHead_moves moves_handleStart h
  | halt => exact handleHead_moves moves_handleHalt h
  | period => exact handleHead_moves moves_handlePeriod h
  | reset => exact handleHead_moves moves_handleReset h
  | bundle => exact hframe quiet_handleBundle h
  | unknownKind => exact hframe quiet_handleUnknownKind h
  | blockVoided =>
    cases h
    refine .inl ?_
    split
    · exact .refl s
    · exact State.quiet_onlyIf _ (s.quiet_voidNext ..)
  | cycleStart => exact moves_cycleStart h
  | slotEvent => exact moves_slotEvent h
  | slotOutcome ret => exact moves_slotOutcome ret h
  | pick =>
    cases h
    refine .inl ?_
    split
    · exact .refl s
    · exact State.quiet_onlyIf _ (s.quiet_pickOf _)
  | frameSent =>
    cases h
    refine .inl ?_
    split
    · exact .refl s
    · exact State.quiet_onlyIf _ ((State.quiet.refl s).withLink _)
  | clockStops => cases h; exact .inl (State.alike.quiet ⟨rfl, rfl, rfl⟩)
  | clockReturns => cases h; exact .inl (State.alike.quiet ⟨rfl, rfl, rfl⟩)

/-- What quiet changes, acts and the end of a bus frame keep, every step keeps. -/
theorem step_keeps {P : State → Prop} (hquiet : ∀ s t, s.quiet t → P s → P t)
    (hacts : ∀ c s t, State.acts c s t → P s → P t) (hgone : ∀ s, P s → P (s.withBus s.bus.frameGone)) {s t : State}
    (h : step s = .next t) (hs : P s) : P t := by
  unfold step at h
  split at h
  · cases h
    rcases s.onlyIf_cases (s.withBus s.bus.frameGone) s.live with ⟨-, hlive⟩ | ⟨-, hrests⟩
    · unfold State.passTime; rw [hlive]; exact hgone s hs
    · unfold State.passTime; rw [hrests]; exact hs
  · next c rest _ =>
    have hfront : P (s.withPending rest) := hquiet s _ (State.alike.quiet ⟨rfl, rfl, rfl⟩) hs
    rcases exec_moves h with hq | ⟨u, v, hu, hact, hv⟩
    · exact hquiet _ t hq hfront
    · exact hquiet v t hv.quiet (hacts c u v hact (hquiet _ u hu.quiet hfront))

end Sys2Proof.Machine
end

section
/-! SUPPORT. What acts carry over: generations, and the pair and ring of a stream that stays open (R3, R4, R27). -/

namespace Sys2Proof.Machine

/-- Generations stay, no stream opens, and one that stays open keeps its pair and its ring. -/
structure State.carries (s t : State) : Prop where
  generation : ∀ i, (t.stream i).generation = (s.stream i).generation
  opening : ∀ i p, t.opening i = some p → ∃ o, s.opening i = some o ∧ p.sameRing o

theorem State.quiet.carries {s t : State} (h : s.quiet t) : s.carries t where
  generation := h.generation
  opening i p hp := by
    obtain ⟨o, ho, hring, -⟩ := h.opening i p hp
    exact ⟨o, ho, hring⟩

theorem State.carries.trans {s t u : State} (h : s.carries t) (g : t.carries u) : s.carries u where
  generation i := (g.generation i).trans (h.generation i)
  opening i p hp := by
    obtain ⟨q, hq, hpq⟩ := g.opening i p hp
    obtain ⟨o, ho, hqo⟩ := h.opening i q hq
    exact ⟨o, ho, hpq.trans hqo⟩

theorem State.alike.carries {s t : State} (h : s.alike t) : s.carries t := h.quiet.carries

/-- Records as they were, closed, or recounted: what a swap and a stop leave. -/
theorem State.carries_of_recounted {s t : State} (p : Plan)
    (hg : ∀ i, (t.stream i).generation = (s.stream i).generation)
    (ho : ∀ i, t.opening i = none ∨ t.opening i = s.opening i ∨ t.opening i = (s.opening i).map (·.recounted p i)) :
    s.carries t where
  generation := hg
  opening i q hq := by
    rcases ho i with h | h | h
    · simp [h] at hq
    · exact ⟨q, by rw [← h, hq], rfl, rfl, rfl, rfl⟩
    · rw [h, Option.map_eq_some_iff] at hq
      obtain ⟨o, ho, rfl⟩ := hq
      exact ⟨o, ho, rfl, rfl, rfl, rfl⟩

theorem State.carries_applySwap (s : State) : s.carries s.applySwap := by
  obtain ⟨-, hopening, hstream, -⟩ := s.applySwap_spec
  refine State.carries_of_recounted s.plans.staged (fun i => (hstream i).1) fun i => ?_
  rw [hopening i]
  split
  · exact .inl rfl
  · exact .inr (.inr rfl)

theorem State.carries_settleSwap (s : State) (cycle : Option Half) : s.carries (s.settleSwap cycle) := by
  cases hp : s.plans.swapPending with
  | false => rw [State.settleSwap_none hp]; exact (State.alike.refl s).carries
  | true =>
    obtain ⟨-, hopening, hstream, -⟩ := State.settleSwap_spec hp cycle
    refine State.carries_of_recounted s.plans.staged (fun i => (hstream i).1) fun i => ?_
    rw [hopening i]
    split
    · exact .inl rfl
    · exact .inr (.inr rfl)

theorem State.carries_stopBus (s : State) : s.carries s.stopBus := by
  obtain ⟨-, -, -, hopening, hstream, -⟩ := s.stopBus_stopsTo
  refine State.carries_of_recounted s.plans.staged (fun i => (hstream i).1) fun i => ?_
  rw [hopening i]
  split
  · exact .inl rfl
  · split
    · exact .inr (.inr rfl)
    · exact .inr (.inl rfl)

theorem State.carries.withBus {s t : State} (h : s.carries t) (b : CycleEngine) : s.carries (t.withBus b) :=
  ⟨h.generation, h.opening⟩

theorem State.carries.withPlans {s t : State} (h : s.carries t) (p : PlanStore) : s.carries (t.withPlans p) :=
  ⟨h.generation, h.opening⟩

theorem State.carries.withReq {s t : State} (h : s.carries t) (u : RequestUnit) : s.carries (t.withReq u) :=
  ⟨h.generation, h.opening⟩

theorem State.carries_endCycle (s : State) : s.carries s.endCycle := by
  have hended : s.carries (s.withBus s.bus.cycleEnded) := (State.alike.refl s).carries.withBus _
  unfold State.endCycle
  split
  · exact (hended.trans (State.carries_stopBus _)).withReq _
  · exact hended

theorem State.carries_afterOutcome (s : State) : s.carries s.afterOutcome := by
  unfold State.afterOutcome
  split
  · exact s.carries_endCycle
  · exact (State.alike.refl s).carries

/-- After a soft reset every record is CLOSED under its generation (R2). -/
theorem State.stream_softReset (s : State) (i : StreamId) : s.softReset.stream i = (s.stream i).softReset :=
  PerStream.at_tabulate ..

theorem State.opening_softReset (s : State) (i : StreamId) : s.softReset.opening i = none := by
  unfold State.opening
  rw [State.stream_softReset]
  rfl

theorem State.carries_softReset (s : State) : s.carries s.softReset where
  generation i := by rw [State.stream_softReset]; rfl
  opening i p hp := by simp [State.opening_softReset] at hp

/-- After power-on reset every record is CLOSED, with generation 0 (R2). -/
theorem State.stream_powerOn (s : State) (rate : Option LinkRate) (rstLow : Bool) (i : StreamId) :
    (s.powerOn rate rstLow).stream i = {} := PerStream.at_replicate ..

theorem State.opening_powerOn (s : State) (rate : Option LinkRate) (rstLow : Bool) (i : StreamId) :
    (s.powerOn rate rstLow).opening i = none := by
  unfold State.opening
  rw [State.stream_powerOn]

/-- An act carries the records over, opens a stream, or is the power-on reset. -/
theorem State.acts.carries_or {c : Instr} {s t : State} (h : State.acts c s t) :
    s.carries t ∨
      (c = .openStream ∧ ∃ f q i, s.openRefusal q i = none ∧ t = s.acceptOpen f q i) ∨
      ∃ cause r1 r0, c = .powerOnReset cause r1 r0 ∧ ∀ i, t.stream i = {} := by
  have hself := (State.alike.refl s).carries
  cases h with
  | opens f haccepted => exact .inr (.inl ⟨rfl, f, _, _, haccepted, rfl⟩)
  | powersOn _ cause r1 r0 rate low => exact .inr (.inr ⟨cause, r1, r0, rfl, s.stream_powerOn rate low⟩)
  | resets => exact .inl ((hself.withReq _).trans (State.carries_softReset _))
  | stages => exact .inl (hself.withPlans _)
  | swapsNow => exact .inl s.carries_applySwap
  | swapsLater => exact .inl (hself.withPlans _)
  | starts => exact .inl (hself.withBus _)
  | haltsNow => exact .inl s.carries_stopBus
  | haltsLater => exact .inl (hself.withBus _)
  | setsPeriod => exact .inl (hself.withBus _)
  | beginsCycle => exact .inl ((s.carries_settleSwap _).withBus _)
  | sendsSlot hvisit => exact .inl (hvisit.carries.withBus _)
  | endsSlot _ _ htaken => exact .inl ((htaken.carries.withBus _).trans (State.carries_afterOutcome _))

/-- A command carries the records over, opens a stream, or is the power-on reset. -/
theorem exec_carries {c : Instr} {s t : State} (h : exec c s = .next t) :
    s.carries t ∨
      (c = .openStream ∧ ∃ f q i u, s.alike u ∧ u.openRefusal q i = none ∧ (u.acceptOpen f q i).alike t) ∨
      ∃ cause r1 r0, c = .powerOnReset cause r1 r0 ∧ ∀ i, t.stream i = {} := by
  rcases exec_moves h with hquiet | ⟨u, v, hu, hact, hv⟩
  · exact .inl hquiet.carries
  · rcases hact.carries_or with hcarries | ⟨hc, f, q, i, haccepted, rfl⟩ | ⟨cause, r1, r0, hc, hblank⟩
    · exact .inl ((hu.carries.trans hcarries).trans hv.carries)
    · exact .inr (.inl ⟨hc, f, q, i, u, hu, haccepted, hv⟩)
    · exact .inr (.inr ⟨cause, r1, r0, hc, fun i => (hv.stream i).trans (hblank i)⟩)

/-! ## The accepted OPEN -/

theorem State.stream_acceptOpen (s : State) (f : Frame) (q : OpenRequest) (i j : StreamId) :
    (s.acceptOpen f q i).stream j = if j = i then s.openedRecord q i else s.stream j := PerStream.at_put ..

theorem State.opening_acceptOpen_self (s : State) (f : Frame) (q : OpenRequest) (i : StreamId) :
    (s.acceptOpen f q i).opening i =
      some (q.opening (s.ring.freeBlocks.take (q.ringSize / 32)) (slotsNaming s.plans.active i)) := by
  unfold State.opening
  rw [State.stream_acceptOpen, if_pos rfl]
  rfl

theorem State.opening_acceptOpen_ne (s : State) (f : Frame) (q : OpenRequest) {i j : StreamId} (h : j ≠ i) :
    (s.acceptOpen f q i).opening j = s.opening j := by
  unfold State.opening
  rw [State.stream_acceptOpen, if_neg h]

/-- A pair is held exactly when some open stream has it (R3). -/
theorem State.pairHeld_iff (s : State) (q : OpenRequest) : s.pairHeld q.station q.channel = true ↔ s.pairTaken q := by
  have hone : ∀ j, s.holdsPair q.station q.channel j = true ↔
      ∃ o, s.opening j = some o ∧ o.station = q.station ∧ o.channel = q.channel := by
    intro j
    unfold State.holdsPair
    cases s.opening j <;> simp
  unfold State.pairHeld State.pairTaken
  simp only [List.any_eq_true, hone, mem_allStreams, true_and]

/-- What an accepted OPEN found (R6). -/
theorem State.openRefusal_eq_none {s : State} {q : OpenRequest} {i : StreamId} (h : s.openRefusal q i = none) :
    s.opening i = none ∧ ¬ s.pairTaken q := by
  unfold State.openRefusal at h
  split at h
  · cases h
  · split at h
    · cases h
    · next hclosed =>
      split at h
      · cases h
      · next hfree => exact ⟨by simpa using hclosed, fun htaken => hfree ((s.pairHeld_iff q).2 htaken)⟩

/-! ## Generations (R4) -/

/-- Settles O50: a command that carries the records over keeps generations; an accepted OPEN and power-on reset are the
other two cases of exec_carries. -/
theorem generationChangesOnlyAtOpenOrPowerOn : Obligations.GenerationChangesOnlyAtOpenOrPowerOn := by
  intro c s t i h
  rcases exec_carries h with hcarries | ⟨hc, f, q, k, u, hu, haccepted, ht⟩ | ⟨cause, r1, r0, hc, hblank⟩
  · exact .inl (hcarries.generation i)
  · by_cases hik : i = k
    · subst hik
      refine .inr (.inl ⟨hc, ?_, ?_, ?_⟩)
      · rw [← hu.opening]; exact (State.openRefusal_eq_none haccepted).1
      · rw [ht.opening, State.opening_acceptOpen_self]; rfl
      · rw [ht.stream, State.stream_acceptOpen, if_pos rfl, ← hu.stream]; rfl
    · left
      rw [ht.stream, State.stream_acceptOpen, if_neg hik, hu.stream]
  · exact .inr (.inr ⟨cause, r1, r0, hc, by rw [hblank]⟩)

/-! ## Pairs (R3) -/

theorem State.carries.pairsDistinct {s t : State} (h : s.carries t) (hs : s.pairsDistinct) : t.pairsDistinct := by
  intro i j p q hp hq hstation hchannel
  obtain ⟨o, ho, hpo⟩ := h.opening i p hp
  obtain ⟨u, hu, hqu⟩ := h.opening j q hq
  exact hs i j o u ho hu (by rw [← hpo.station, ← hqu.station, hstation]) (by rw [← hpo.channel, ← hqu.channel, hchannel])

/-- A stream opened with a pair that no open stream has keeps the pairs distinct. -/
theorem State.pairsDistinct_acceptOpen {s : State} (f : Frame) {q : OpenRequest} {i : StreamId}
    (haccepted : s.openRefusal q i = none) (hs : s.pairsDistinct) : (s.acceptOpen f q i).pairsDistinct := by
  have hfree := (State.openRefusal_eq_none haccepted).2
  have hnew : ∀ p, (s.acceptOpen f q i).opening i = some p → p.station = q.station ∧ p.channel = q.channel := by
    intro p hp
    rw [State.opening_acceptOpen_self] at hp
    cases hp
    exact ⟨rfl, rfl⟩
  intro j k p r hp hr hstation hchannel
  by_cases hj : j = i <;> by_cases hk : k = i
  · rw [hj, hk]
  · subst hj
    rw [State.opening_acceptOpen_ne _ _ _ hk] at hr
    exact absurd ⟨k, r, hr, hstation ▸ (hnew p hp).1, hchannel ▸ (hnew p hp).2⟩ hfree
  · subst hk
    rw [State.opening_acceptOpen_ne _ _ _ hj] at hp
    exact absurd ⟨j, p, hp, hstation ▸ (hnew r hr).1, hchannel ▸ (hnew r hr).2⟩ hfree
  · rw [State.opening_acceptOpen_ne _ _ _ hj] at hp
    rw [State.opening_acceptOpen_ne _ _ _ hk] at hr
    exact hs j k p r hp hr hstation hchannel

theorem State.acts.pairsDistinct {c : Instr} {s t : State} (h : State.acts c s t) (hs : s.pairsDistinct) :
    t.pairsDistinct := by
  rcases h.carries_or with hcarries | ⟨-, f, q, i, haccepted, rfl⟩ | ⟨-, -, -, -, hblank⟩
  · exact hcarries.pairsDistinct hs
  · exact State.pairsDistinct_acceptOpen f haccepted hs
  · intro i _ p _ hp
    simp [State.opening, hblank] at hp

/-- A stream open before and after a command keeps its pair and ring: an OPEN is accepted for a CLOSED stream only, and
power-on reset closes. -/
theorem exec_sameRing {c : Instr} {s t : State} (h : exec c s = .next t) {i : StreamId} {o p : Opening}
    (ho : s.opening i = some o) (hp : t.opening i = some p) : p.sameRing o := by
  rcases exec_carries h with hcarries | ⟨-, f, q, k, u, hu, haccepted, ht⟩ | ⟨-, -, -, -, hblank⟩
  · obtain ⟨o', ho', hring⟩ := hcarries.opening i p hp
    rw [ho] at ho'
    cases ho'
    exact hring
  · have hik : i ≠ k := by
      rintro rfl
      rw [← hu.opening, (State.openRefusal_eq_none haccepted).1] at ho
      cases ho
    rw [ht.opening, State.opening_acceptOpen_ne _ _ _ hik, hu.opening, ho] at hp
    cases hp
    exact ⟨rfl, rfl, rfl, rfl⟩
  · simp [State.opening, hblank] at hp

theorem step_sameRing {s t : State} (h : step s = .next t) {i : StreamId} {o p : Opening}
    (ho : s.opening i = some o) (hp : t.opening i = some p) : p.sameRing o := by
  unfold step at h
  split at h
  · have hsame : t.opening i = s.opening i := by
      cases h
      unfold State.passTime State.onlyIf
      split <;> rfl
    rw [hsame, ho] at hp
    cases hp
    exact ⟨rfl, rfl, rfl, rfl⟩
  · exact exec_sameRing h (by exact ho) hp

/-- Settles O52: quiet changes and acts keep the pairs distinct, and a step that leaves a stream open leaves its pair and
ring. -/
theorem everyStepKeepsPairsDistinct : Obligations.EveryStepKeepsPairsDistinct := by
  intro s t h
  refine ⟨step_keeps (fun _ _ hquiet => hquiet.carries.pairsDistinct) (fun _ _ _ hact => hact.pairsDistinct)
    (fun s => ((State.alike.refl s).carries.withBus _).pairsDistinct) h, fun i o p ho hp _ => ?_⟩
  have hring := step_sameRing h ho hp
  exact ⟨hring.station, hring.channel, hring.ringSize, hring.blockMap⟩

end Sys2Proof.Machine
end

section
/-! SUPPORT. The laws of plans, slots, bus and drains (R19, R57 to R65, R71 to R75, R84, R104), act by act. -/

namespace Sys2Proof.Machine

/-! ## Plans -/

theorem Plan.ok_nil {period : Nat} (h : 12 ≤ period) : Plan.ok [] period :=
  ⟨Nat.zero_le _, fun _ => Nat.zero_le _, by simpa [fitsPeriod] using h⟩

theorem fitsPeriod_iff (n period : Nat) : fitsPeriod n period = true ↔ 4 + 2 * n + 8 ≤ period := decide_eq_true_iff

theorem Plan.ok.twelve_le {p : Plan} {period : Nat} (h : Plan.ok p period) : 12 ≤ period := by
  have := (fitsPeriod_iff _ _).1 h.2.2
  omega

/-- The slots of a plan are as many as the bytes it is read from. -/
theorem planOf_length {entries : List Byte} {p : Plan} (h : planOf entries = some p) : p.length = entries.length := by
  induction entries generalizing p with
  | nil => cases h; rfl
  | cons b entries ih =>
    unfold planOf at h
    split at h
    · next hplan => cases h; simp [ih hplan]
    · cases h

/-- A plan that passes the checks of R61 is one the Plan Store may hold. -/
theorem stagePlan_ok {entries : List Byte} {period : Nat} {p : Plan} (h : stagePlan entries period = some p) :
    Plan.ok p period := by
  unfold stagePlan at h
  split at h
  · next hlength =>
    split at h
    · cases h
    · next hplan =>
      split at h
      · next hgood =>
        cases h
        refine ⟨planOf_length hplan ▸ hlength.2, fun i => ?_, hgood.2⟩
        exact of_decide_eq_true (List.all_eq_true.1 hgood.1 i (mem_allStreams i))
      · cases h
  · cases h

/-- A period that passes the checks of R86 is set on a STOPPED bus, and both plans fit it. -/
theorem State.periodRefusal_eq_none {s : State} {p : Nat} (h : s.periodRefusal p = none) :
    s.bus.state = .stopped ∧ fitsPeriod s.plans.active.length p = true ∧ fitsPeriod s.plans.staged.length p = true := by
  unfold State.periodRefusal at h
  split at h
  · cases h
  · split at h
    · cases h
    · next hstopped =>
      split at h
      · cases h
      · next hfits =>
        simp only [Bool.or_eq_true, Bool.not_eq_true', not_or, Bool.not_eq_false] at hfits
        exact ⟨not_not.1 hstopped, hfits⟩

/-- The plans after a pending swap is settled, or none was pending. -/
theorem State.settleSwap_plans (s : State) (cycle : Option Half) :
    (s.settleSwap cycle).plans = if s.plans.swapPending then { active := s.plans.staged, staged := [], swapPending := false }
      else s.plans := by
  cases hp : s.plans.swapPending with
  | false => rw [State.settleSwap_none hp]; rfl
  | true => exact (State.settleSwap_spec hp cycle).1

theorem State.settleSwap_bus (s : State) (cycle : Option Half) : (s.settleSwap cycle).bus = s.bus := by
  cases hp : s.plans.swapPending with
  | false => rw [State.settleSwap_none hp]
  | true =>
    obtain ⟨-, -, -, -, -, hbus, -⟩ := State.settleSwap_spec hp cycle
    exact hbus

/-- The Plan Store's laws read only the plans, the period and the bus state. -/
theorem State.plansOk_congr {s t : State} (hp : t.plans = s.plans) (hperiod : t.bus.period = s.bus.period)
    (hstate : t.bus.state = s.bus.state) (h : s.plansOk) : t.plansOk := by
  unfold State.plansOk at *
  rwa [hp, hperiod, hstate]

theorem State.quiet.plansOk {s t : State} (h : s.quiet t) (hs : s.plansOk) : t.plansOk :=
  State.plansOk_congr h.plans (congrArg CycleEngine.period h.bus) (congrArg CycleEngine.state h.bus) hs

theorem State.plansOk_applySwap {s t : State} (hidle : s.plans.swapPending = false) (hstopped : s.bus.state = .stopped)
    (hp : t.plans = { s.plans with active := s.plans.staged, staged := [] }) (hb : t.bus = s.bus) (h : s.plansOk) :
    t.plansOk := by
  obtain ⟨hactive, hstaged, -, -⟩ := h
  unfold State.plansOk
  rw [hp, hb]
  exact ⟨hstaged, Plan.ok_nil hstaged.twelve_le, fun hruns => absurd hstopped hruns,
    fun hpending => by simp [hidle] at hpending⟩

theorem State.plansOk_settleSwap {s : State} (cycle : Option Half) (h : s.plansOk) : (s.settleSwap cycle).plansOk := by
  cases hp : s.plans.swapPending with
  | false => rwa [State.settleSwap_none hp]
  | true =>
    obtain ⟨hactive, hstaged, -, hpending⟩ := h
    have hplans := State.settleSwap_plans s cycle
    rw [if_pos hp] at hplans
    unfold State.plansOk
    rw [hplans, State.settleSwap_bus]
    exact ⟨hstaged, Plan.ok_nil hstaged.twelve_le, fun _ => (hpending hp).2, nofun⟩

theorem State.stopBus_bus (s : State) : s.stopBus.bus = s.bus.stopped := s.stopBus_stopsTo.2.1

theorem State.plansOk_stopBus {s : State} (h : s.plansOk) : s.stopBus.plansOk := by
  obtain ⟨hactive, hstaged, -, -⟩ := h
  obtain ⟨-, hbus, hplans, -⟩ := s.stopBus_stopsTo
  unfold State.plansOk
  rw [hbus, hplans]
  cases hp : s.plans.swapPending with
  | true =>
    exact ⟨hstaged, Plan.ok_nil hstaged.twelve_le, fun hruns => absurd rfl hruns, nofun⟩
  | false =>
    refine ⟨hactive, hstaged, fun hruns => absurd rfl hruns, fun hpending => ?_⟩
    rw [if_neg (by simp), hp] at hpending
    cases hpending

/-- What holds after the outcome: the slots that are left, the cycle ended, or the bus stopped (R75, R84). -/
theorem State.afterOutcome_cases (s : State) :
    (s.afterOutcome = s ∧ s.bus.nextSlot < s.bus.slotCount.getD 0) ∨
    (s.afterOutcome = s.withBus s.bus.cycleEnded ∧ s.bus.state ≠ .halting) ∨
    (s.withBus s.bus.cycleEnded).stopBus.alike s.afterOutcome := by
  unfold State.afterOutcome State.endCycle
  split
  · split
    · exact .inr (.inr (State.alike_withReq ..))
    · next hrunning => exact .inr (.inl ⟨rfl, hrunning⟩)
  · next hleft => exact .inl ⟨rfl, by omega⟩

theorem State.plansOk_afterOutcome {s : State} (h : s.plansOk) : s.afterOutcome.plansOk := by
  rcases s.afterOutcome_cases with ⟨hsame, -⟩ | ⟨hended, -⟩ | hstopped
  · rwa [hsame]
  · rw [hended]; exact h
  · exact hstopped.quiet.plansOk (State.plansOk_stopBus h)

/-- The blank plans and bus of both resets obey every law. -/
theorem State.plansOk_blank {t : State} (hp : t.plans = {}) (hb : t.bus = {}) : t.plansOk := by
  unfold State.plansOk
  rw [hp, hb]
  exact ⟨Plan.ok_nil (by decide), Plan.ok_nil (by decide), fun hruns => absurd rfl hruns, nofun⟩

theorem State.acts.plansOk {c : Instr} {s t : State} (h : State.acts c s t) (hs : s.plansOk) : t.plansOk := by
  obtain ⟨hactive, hstaged, hruns, hpending⟩ := id hs
  cases h with
  | opens => exact State.plansOk_congr rfl rfl rfl hs
  | powersOn => exact State.plansOk_blank rfl rfl
  | resets => exact State.plansOk_blank rfl rfl
  | stages hidle hgood =>
    exact ⟨hactive, stagePlan_ok hgood, hruns, fun hp => absurd hp (by simp [hidle])⟩
  | swapsNow hidle hstopped =>
    obtain ⟨hplans, -, -, -, -, hbus, -⟩ := s.applySwap_spec
    exact State.plansOk_applySwap hidle hstopped hplans hbus hs
  | swapsLater hnonempty hrunning => exact ⟨hactive, hstaged, hruns, fun _ => ⟨hrunning, hnonempty⟩⟩
  | starts hstopped hnonempty =>
    exact ⟨hactive, hstaged, fun _ => hnonempty, fun hp => absurd hstopped (hpending hp).1⟩
  | haltsNow => exact State.plansOk_stopBus hs
  | haltsLater hrunning _ =>
    have hne : s.bus.state ≠ .stopped := by simp [hrunning]
    exact ⟨hactive, hstaged, fun _ => hruns hne, fun hp => ⟨nofun, (hpending hp).2⟩⟩
  | setsPeriod hgood =>
    obtain ⟨-, hfits, hfits'⟩ := State.periodRefusal_eq_none hgood
    exact ⟨⟨hactive.1, hactive.2.1, hfits⟩, ⟨hstaged.1, hstaged.2.1, hfits'⟩, hruns, hpending⟩
  | beginsCycle time _ => exact State.plansOk_congr rfl rfl rfl (State.plansOk_settleSwap (some s.bus.nextNumber) hs)
  | sendsSlot hvisit _ command => exact State.plansOk_congr hvisit.plans rfl rfl hs
  | endsSlot _ _ htaken =>
    exact State.plansOk_afterOutcome (State.plansOk_congr rfl rfl rfl (htaken.plansOk hs))

/-! ## Active slots -/


/-- A record that a swap leaves open is recounted. -/
theorem recounted_of_swap {x : Option Opening} {c : Prop} [Decidable c] {plan : Plan} {i : StreamId} {p : Opening}
    (h : (if c then none else x.map (·.recounted plan i)) = some p) : ∃ o, x = some o ∧ p = o.recounted plan i := by
  split at h
  · cases h
  · obtain ⟨o, ho, rfl⟩ := Option.map_eq_some_iff.1 h
    exact ⟨o, ho, rfl⟩

/-- Records closed, or recounted from the plan that a swap makes active, are counted (R68 (3)). -/
theorem State.slotsCounted_of_swap {s t : State} {closed : StreamId → Prop} [DecidablePred closed]
    (hactive : t.plans.active = s.plans.staged)
    (hopening : ∀ i, t.opening i = if closed i then none else (s.opening i).map (·.recounted s.plans.staged i)) :
    t.slotsCounted := by
  intro i p hp
  rw [hopening i] at hp
  obtain ⟨o, -, rfl⟩ := recounted_of_swap hp
  rw [hactive]
  rfl

theorem State.slotsCounted_congr {s t : State} (hp : t.plans.active = s.plans.active)
    (ho : ∀ i p, t.opening i = some p → ∃ o, s.opening i = some o ∧ p.activeSlots = o.activeSlots) (h : s.slotsCounted) :
    t.slotsCounted := by
  intro i p hp'
  obtain ⟨o, ho', hslots⟩ := ho i p hp'
  rw [hslots, hp, h i o ho']

theorem State.quiet.slotsCounted {s t : State} (h : s.quiet t) (hs : s.slotsCounted) : t.slotsCounted :=
  State.slotsCounted_congr (congrArg PlanStore.active h.plans)
    (fun i p hp => by
      obtain ⟨o, ho, -, hslots, -⟩ := h.opening i p hp
      exact ⟨o, ho, hslots⟩) hs

/-- Changes of the bus, the staged plan and the swap mark do not touch what is counted. -/
theorem State.slotsCounted_of_opening {s t : State} (hp : t.plans.active = s.plans.active)
    (ho : ∀ i, t.opening i = s.opening i) (h : s.slotsCounted) : t.slotsCounted :=
  State.slotsCounted_congr hp (fun i p hp => ⟨p, ho i ▸ hp, rfl⟩) h

theorem State.slotsCounted_settleSwap {s : State} (cycle : Option Half) (h : s.slotsCounted) :
    (s.settleSwap cycle).slotsCounted := by
  cases hp : s.plans.swapPending with
  | false => rwa [State.settleSwap_none hp]
  | true =>
    obtain ⟨hplans, hopening, -⟩ := State.settleSwap_spec hp cycle
    exact State.slotsCounted_of_swap (congrArg PlanStore.active hplans) hopening

theorem State.slotsCounted_stopBus {s : State} (h : s.slotsCounted) : s.stopBus.slotsCounted := by
  obtain ⟨-, -, hplans, hopening, -⟩ := s.stopBus_stopsTo
  cases hp : s.plans.swapPending with
  | false =>
    simp only [hp, Bool.false_eq_true, if_false] at hplans hopening
    refine State.slotsCounted_congr (congrArg PlanStore.active hplans) (fun i p hi => ?_) h
    rw [hopening i] at hi
    split at hi
    · cases hi
    · exact ⟨p, hi, rfl⟩
  | true =>
    simp only [hp, if_true] at hplans hopening
    exact State.slotsCounted_of_swap (congrArg PlanStore.active hplans) hopening

theorem State.slotsCounted_afterOutcome {s : State} (h : s.slotsCounted) : s.afterOutcome.slotsCounted := by
  rcases s.afterOutcome_cases with ⟨hsame, -⟩ | ⟨hended, -⟩ | hstopped
  · rwa [hsame]
  · rw [hended]; exact h
  · exact hstopped.quiet.slotsCounted (State.slotsCounted_stopBus h)

theorem State.slotsCounted_closed {t : State} (h : ∀ i, t.opening i = none) : t.slotsCounted := fun i p hp => by
  rw [h i] at hp
  cases hp

theorem State.acts.slotsCounted {c : Instr} {s t : State} (h : State.acts c s t) (hs : s.slotsCounted) :
    t.slotsCounted := by
  cases h with
  | @opens _ q k f _ =>
    intro i p hp
    by_cases hik : i = k
    · subst hik
      rw [State.opening_acceptOpen_self] at hp
      cases hp
      rfl
    · rw [State.opening_acceptOpen_ne _ _ _ hik] at hp
      exact hs i p hp
  | powersOn _ _ _ _ rate low => exact State.slotsCounted_closed (s.opening_powerOn rate low)
  | resets => exact State.slotsCounted_closed (State.opening_softReset _)
  | stages => exact hs
  | swapsNow =>
    obtain ⟨hplans, hopening, -⟩ := s.applySwap_spec
    exact State.slotsCounted_of_swap (congrArg PlanStore.active hplans) hopening
  | swapsLater => exact hs
  | starts => exact hs
  | haltsNow => exact State.slotsCounted_stopBus hs
  | haltsLater => exact hs
  | setsPeriod => exact hs
  | beginsCycle time _ =>
    exact State.slotsCounted_of_opening rfl (fun _ => rfl) (State.slotsCounted_settleSwap (some s.bus.nextNumber) hs)
  | sendsSlot hvisit => exact State.slotsCounted_of_opening rfl (fun _ => rfl) (hvisit.slotsCounted hs)
  | endsSlot _ _ htaken =>
    exact State.slotsCounted_afterOutcome (State.slotsCounted_of_opening rfl (fun _ => rfl) (htaken.slotsCounted hs))

/-! ## The Cycle Engine -/

theorem State.busOk_congr {s t : State} (hp : t.plans.active = s.plans.active) (hb : t.bus = s.bus) (h : s.busOk) :
    t.busOk := by
  unfold State.busOk at *
  rwa [hp, hb]

theorem State.quiet.busOk {s t : State} (h : s.quiet t) (hs : s.busOk) : t.busOk :=
  State.busOk_congr (congrArg PlanStore.active h.plans) h.bus hs

/-- A STOPPED bus with no cycle, no timer and nothing on the line obeys the laws. -/
theorem State.busOk_stopped {t : State} {b : CycleEngine} (hb : t.bus = b) (hs : b.state = .stopped)
    (htimer : b.cycleTimer = none) (hcycle : b.inProgress = false) (hcount : b.slotCount = none)
    (hflight : b.slotInFlight = none) (htx : b.busTx = none) : t.busOk := by
  subst hb
  refine ⟨fun _ => ⟨htimer, hcycle, hflight, htx⟩, fun hruns => absurd hs hruns, fun hhalting => ?_, ?_, fun r hr => ?_,
    fun hin => ?_⟩
  · simp [hs] at hhalting
  · simp [hcycle, hcount]
  · simp [hflight] at hr
  · simp [hcycle] at hin

theorem State.busOk_stopBus (s : State) : s.stopBus.busOk :=
  State.busOk_stopped s.stopBus_bus rfl rfl rfl rfl rfl rfl

theorem State.busOk_blank {t : State} (hb : t.bus = {}) : t.busOk :=
  State.busOk_stopped hb rfl rfl rfl rfl rfl rfl

/-- The mark of a cycle in progress is that of a bus that is not STOPPED. -/
theorem State.busOk.runs {s : State} (h : s.busOk) (hin : s.bus.inProgress = true) : s.bus.state ≠ .stopped := by
  intro hstopped
  rw [(h.1 hstopped).2.1] at hin
  cases hin

theorem CycleEngine.cycleDue_iff (b : CycleEngine) : b.cycleDue = true ↔ b.state = .running ∧ b.inProgress = false := by
  simp [CycleEngine.cycleDue]

theorem CycleEngine.slotDue_iff (b : CycleEngine) :
    b.slotDue = true ↔ b.inProgress = true ∧ b.slotInFlight = none ∧ b.nextSlot < b.slotCount.getD 0 := by
  simp [CycleEngine.slotDue, and_assoc]

/-- The cycle start: the slot count is that of the plan active after the swap, which a running bus does not leave empty. -/
theorem State.busOk_beginCycle {s : State} (time : Nat) (hdue : s.bus.cycleDue = true) (hplans : s.plansOk) (h : s.busOk) :
    (s.beginCycle time).busOk := by
  obtain ⟨hrunning, hgap⟩ := s.bus.cycleDue_iff.1 hdue
  obtain ⟨-, -, -, -, hflight, -⟩ := h
  have hb := s.settleSwap_bus (some s.bus.nextNumber)
  have hnonempty := (State.plansOk_settleSwap (some s.bus.nextNumber) hplans).2.2.1
  unfold State.beginCycle
  generalize s.settleSwap (some s.bus.nextNumber) = u at hb hnonempty ⊢
  have hstate : u.bus.state = .running := hb ▸ hrunning
  have hactive : u.plans.active ≠ [] := hnonempty (by simp [hstate])
  refine ⟨fun hs => ?_, fun _ => rfl, fun _ => rfl, rfl, fun r hr => ?_, fun _ _ => ?_⟩
  · have hs : u.bus.state = .stopped := hs
    rw [hstate] at hs
    cases hs
  · have hr : u.bus.slotInFlight = some r := hr
    rw [hb] at hr
    rw [hgap] at hflight
    cases (hflight r hr).1
  · exact List.length_pos_iff.2 hactive

/-- The slot event: the slot sent is the one in flight, and the next is the one after it. -/
theorem State.busOk_sent {s u : State} (hp : u.plans = s.plans) (hdue : s.bus.slotDue = true) (c : Command) (h : s.busOk) :
    (u.withBus (s.bus.sent s.bus.nextSlot c)).busOk := by
  obtain ⟨hin, -, hleft⟩ := s.bus.slotDue_iff.1 hdue
  have hruns := h.runs hin
  obtain ⟨-, htimer, hhalting, hcount, -, -⟩ := h
  have hlt : s.bus.nextSlot < s.plans.active.length := by simpa [hcount, hin] using hleft
  refine ⟨fun hs => absurd hs hruns, htimer, hhalting, ?_, fun r hr => ?_, fun _ hnone => ?_⟩
  · show s.bus.slotCount = if s.bus.inProgress then some u.plans.active.length else none
    rw [hcount, hp]
  · cases hr
    refine ⟨hin, rfl, ?_⟩
    show s.bus.nextSlot + 1 ≤ u.plans.active.length
    rw [hp]
    exact hlt
  · cases hnone

/-- The end of a slot: slots are left, or the cycle ends, or the bus stops. -/
theorem State.busOk_endsSlot {u : State} {r : SlotRecord} (hflies : u.bus.slotInFlight = some r) (h : u.busOk) :
    (u.withBus (u.bus.slotEnded r.index)).afterOutcome.busOk := by
  obtain ⟨-, htimer, hhalting, hcount, hflight, -⟩ := id h
  obtain ⟨hin, -, -⟩ := hflight r hflies
  have hruns := h.runs hin
  rcases (u.withBus (u.bus.slotEnded r.index)).afterOutcome_cases with ⟨hsame, hleft⟩ | ⟨hended, hnothalting⟩ | hstopped
  · rw [hsame]
    have hleft : u.bus.nextSlot < u.bus.slotCount.getD 0 := hleft
    refine ⟨fun hs => absurd hs hruns, htimer, hhalting, hcount, nofun, fun _ _ => ?_⟩
    show u.bus.nextSlot < u.plans.active.length
    simpa [hcount, hin] using hleft
  · rw [hended]
    exact ⟨fun hs => absurd hs hruns, htimer, fun hs => absurd hs hnothalting, rfl, nofun, nofun⟩
  · exact hstopped.quiet.busOk (State.busOk_stopBus _)

theorem State.acts.busOk {c : Instr} {s t : State} (h : State.acts c s t) (hplans : s.plansOk) (hs : s.busOk) : t.busOk := by
  obtain ⟨hstopped, htimer, hhalting, hcount, hflight, hleft⟩ := id hs
  cases h with
  | opens => exact State.busOk_congr rfl rfl hs
  | powersOn => exact State.busOk_blank rfl
  | resets => exact State.busOk_blank rfl
  | stages => exact State.busOk_congr rfl rfl hs
  | swapsNow _ hstate =>
    obtain ⟨-, -, -, -, -, hbus, -⟩ := s.applySwap_spec
    obtain ⟨hnone, hgap, hnoflight, htx⟩ := hstopped hstate
    rw [hgap] at hcount
    exact State.busOk_stopped hbus hstate hnone hgap hcount hnoflight htx
  | swapsLater => exact State.busOk_congr rfl rfl hs
  | starts hstate _ => exact ⟨nofun, fun _ => rfl, nofun, hcount, hflight, hleft⟩
  | haltsNow => exact s.busOk_stopBus
  | haltsLater hrunning hin =>
    exact ⟨nofun, fun _ => htimer (by simp [hrunning]), fun _ => hin, hcount, hflight, hleft⟩
  | setsPeriod => exact hs
  | beginsCycle time hdue => exact State.busOk_beginCycle time hdue hplans hs
  | sendsSlot hvisit hdue command => exact State.busOk_sent hvisit.plans hdue command hs
  | endsSlot _ hflies htaken =>
    exact State.busOk_endsSlot (htaken.bus ▸ hflies) (htaken.busOk hs)

theorem State.busOk_frameGone {s : State} (h : s.busOk) : (s.withBus s.bus.frameGone).busOk := by
  obtain ⟨hstopped, htimer, hhalting, hcount, hflight, hleft⟩ := h
  refine ⟨fun hs => ?_, htimer, hhalting, hcount, hflight, hleft⟩
  obtain ⟨hnone, hgap, hnoflight, -⟩ := hstopped hs
  exact ⟨hnone, hgap, hnoflight, rfl⟩

/-! ## Drains -/

theorem State.quiet.drainsOk {s t : State} (h : s.quiet t) (hs : s.drainsOk) : t.drainsOk := by
  intro hstopped i p hp hdrain
  rw [h.bus] at hstopped
  obtain ⟨o, ho, -, -, hdrains⟩ := h.opening i p hp
  rcases hdrains hdrain with hd | hruns
  · exact hs hstopped i o ho hd
  · exact hruns hstopped

/-- A bus that is not STOPPED may have any streams DRAINING. -/
theorem State.drainsOk_runs {t : State} (h : t.bus.state ≠ .stopped) : t.drainsOk := fun hs => absurd hs h

theorem State.drainsOk_closed {t : State} (h : ∀ i, t.opening i = none) : t.drainsOk := fun _ i p hp => by
  rw [h i] at hp
  cases hp

/-- The stop leaves no stream DRAINING (R104). -/
theorem State.drainsOk_stopBus (s : State) : s.stopBus.drainsOk := by
  obtain ⟨-, -, -, hopening, -⟩ := s.stopBus_stopsTo
  intro _ i p hp hdrain
  rw [hopening i] at hp
  split at hp
  · cases hp
  · next hnot =>
    have hsame : ∀ o, s.opening i = some o → o.phase ≠ .draining := fun o ho hd => hnot (by simp [State.isDraining, ho, hd])
    split at hp
    · obtain ⟨o, ho, rfl⟩ := Option.map_eq_some_iff.1 hp
      exact hsame o ho hdrain
    · exact hsame p hp hdrain

theorem State.drainsOk_applySwap {s : State} (hs : s.drainsOk) : s.applySwap.drainsOk := by
  obtain ⟨-, hopening, -, -, -, hbus, -⟩ := s.applySwap_spec
  intro hstopped i p hp
  rw [hbus] at hstopped
  rw [hopening i] at hp
  obtain ⟨o, ho, rfl⟩ := recounted_of_swap hp
  exact hs hstopped i o ho

theorem State.acts.drainsOk {c : Instr} {s t : State} (h : State.acts c s t) (hs : s.drainsOk) : t.drainsOk := by
  cases h with
  | @opens _ q k f _ =>
    intro hstopped i p hp
    by_cases hik : i = k
    · subst hik
      rw [State.opening_acceptOpen_self] at hp
      cases hp
      nofun
    · rw [State.opening_acceptOpen_ne _ _ _ hik] at hp
      exact hs hstopped i p hp
  | powersOn _ _ _ _ rate low => exact State.drainsOk_closed (s.opening_powerOn rate low)
  | resets => exact State.drainsOk_closed (State.opening_softReset _)
  | stages => exact hs
  | swapsNow => exact State.drainsOk_applySwap hs
  | swapsLater => exact hs
  | starts => exact State.drainsOk_runs nofun
  | haltsNow => exact s.drainsOk_stopBus
  | haltsLater => exact State.drainsOk_runs nofun
  | setsPeriod => exact hs
  | beginsCycle time hdue =>
    refine State.drainsOk_runs ?_
    show (s.settleSwap (some s.bus.nextNumber)).bus.state ≠ .stopped
    rw [State.settleSwap_bus, (s.bus.cycleDue_iff.1 hdue).1]
    nofun
  | sendsSlot hvisit => exact fun hstopped => hvisit.drainsOk hs (hvisit.bus ▸ hstopped)
  | @endsSlot _ u r _ _ htaken =>
    have hended : (u.withBus (u.bus.slotEnded r.index)).drainsOk := htaken.drainsOk hs
    rcases (u.withBus (u.bus.slotEnded r.index)).afterOutcome_cases with ⟨hsame, -⟩ | ⟨hgap, -⟩ | hstopped
    · rwa [hsame]
    · rw [hgap]; exact hended
    · exact hstopped.quiet.drainsOk (State.drainsOk_stopBus _)

/-! ## The step -/

/-- Settles O56: each law is kept by quiet changes, by every act, and by the end of a bus frame; the bus's laws together
with those of the plans, since a cycle starts on a plan that is not empty. -/
theorem everyStepKeepsPlansAndBus : Obligations.EveryStepKeepsPlansAndBus := by
  intro s t h
  refine ⟨step_keeps (fun _ _ hq => hq.plansOk) (fun _ _ _ ha => ha.plansOk) (fun _ hs => hs) h,
    step_keeps (fun _ _ hq => hq.slotsCounted) (fun _ _ _ ha => ha.slotsCounted) (fun _ hs => hs) h,
    fun hplans hbus => (step_keeps (P := fun s => s.plansOk ∧ s.busOk) ?_ ?_ ?_ h ⟨hplans, hbus⟩).2,
    step_keeps (fun _ _ hq => hq.drainsOk) (fun _ _ _ ha => ha.drainsOk) (fun _ hs => hs) h⟩
  · exact fun _ _ hq hs => ⟨hq.plansOk hs.1, hq.busOk hs.2⟩
  · exact fun _ _ _ ha hs => ⟨ha.plansOk hs.1, ha.busOk hs.1 hs.2⟩
  · exact fun _ hs => ⟨hs.1, State.busOk_frameGone hs.2⟩

end Sys2Proof.Machine
end

section
/-! SUPPORT. Requests about streams: the bodies read field by field, and the answers of R147 and R161. -/

namespace Sys2Proof.Machine

/-! ## Bodies -/

theorem formed_none {α : Type} {parse : Frame → Option α} {f : Frame} (h : tagOf f = 0 ∨ parse f = none) :
    formed parse f = none := by
  unfold formed
  split
  · rfl
  · next htag => exact h.resolve_left htag

theorem formed_of_tag {α : Type} (parse : Frame → Option α) {f : Frame} (h : tagOf f ≠ 0) : formed parse f = parse f :=
  if_neg h

theorem streamOf_eq_none {b : Byte} (h : 64 ≤ b.toNat) : streamOf b = none := dif_neg (by omega)

theorem streamOf_eq_some {b : Byte} {i : StreamId} (h : b.toNat = i.val) : streamOf b = some i := by
  have hlt : b.toNat < 64 := h ▸ i.isLt
  unfold streamOf
  rw [dif_pos hlt]
  exact congrArg some (Fin.ext h)

/-- The body of a QUERY or a FLUSH is the stream byte alone. -/
theorem parseStream_eq (f : Frame) : parseStream f = if f.length = 3 then some (byteAt f 2) else none := by
  unfold parseStream
  split
  · rfl
  · next hform =>
    split
    · next hlength =>
      obtain ⟨a, b, c, rfl⟩ := List.length_eq_three.1 hlength
      exact absurd rfl (hform a b c)
    · rfl

/-- The body of a CLOSE is the stream byte and the drain flag. -/
theorem parseClose_eq (f : Frame) :
    parseClose f = if f.length = 4 then (flagOf (byteAt f 3)).map fun d => (byteAt f 2, d) else none := by
  unfold parseClose
  split
  · rfl
  · next hform =>
    split
    · next hlength =>
      match f, hlength with
      | [a, b, c, d], _ => exact absurd rfl (hform a b c d)
    · rfl

theorem parseOpen_stream {f : Frame} {q : OpenRequest} (h : parseOpen f = some q) : 3 ≤ f.length ∧ q.stream = byteAt f 2 := by
  unfold parseOpen at h
  split at h
  · split at h
    · cases h
      exact ⟨by simp, rfl⟩
    · cases h
  · cases h

theorem tuneFields_stream {stream presence : Byte} {bs : List Byte} {q : TuneRequest}
    (h : tuneFields stream presence bs = some q) : q.stream = stream := by
  simp only [tuneFields, Option.bind_eq_bind, Option.bind_eq_some_iff] at h
  obtain ⟨_, -, _, -, _, -, _, -, _, -, _, -, _, -, _, -, h⟩ := h
  split at h
  · cases h; rfl
  · cases h

theorem parseTune_stream {f : Frame} {q : TuneRequest} (h : parseTune f = some q) : 3 ≤ f.length ∧ q.stream = byteAt f 2 := by
  unfold parseTune at h
  split at h
  · exact ⟨by simp, tuneFields_stream h⟩
  · cases h

/-! ## The rows -/

theorem frameCommand_open {f : Frame} (h : kindOf f = 0x02) : frameCommand f = .openStream := by
  unfold frameCommand; rw [h]; rfl

theorem frameCommand_close {f : Frame} (h : kindOf f = 0x03) :
    frameCommand f = if byteAt f 3 = 1 then .closeWithDrain else .closeAtOnce := by
  unfold frameCommand; rw [h]; rfl

theorem frameCommand_tune {f : Frame} (h : kindOf f = 0x05) : frameCommand f = .tune := by
  unfold frameCommand; rw [h]; rfl

theorem frameCommand_query {f : Frame} (h : kindOf f = 0x06) : frameCommand f = .query := by
  unfold frameCommand; rw [h]; rfl

/-! ## The answers -/

/-- A refusal for its form carries FFH for the stream (R161). -/
theorem replyFor_badForm {f : Frame} {k : Byte} (hk : kindOf f = k) (result : ReplyResult) :
    replyFor f .badForm result = ⟨tagOf f, k, .badForm, 0xFF, result⟩ := by
  unfold replyFor
  rw [replyStream_badForm, hk]

/-- Any other answer to a request that names a stream carries the stream byte as received (R161). -/
theorem replyFor_named {f : Frame} {k : Byte} (hk : kindOf f = k) (hnames : namesStream k = true) (hl : 3 ≤ f.length)
    {status : Status} (hs : status ≠ .badForm) (result : ReplyResult) :
    replyFor f status result = ⟨tagOf f, k, status, byteAt f 2, result⟩ := by
  unfold replyFor replyStream
  rw [hk, if_pos ⟨hs, hnames, hl⟩]

/-- A frame whose handling is one reply: the frame gone, the reply queued, nothing else. -/
theorem handleHead_replies {s : State} {f : Frame} {rest : List Frame} {c : Instr} {handle : Frame → State → State}
    {status : Status} {result : ReplyResult} (h : s.canTake f rest) (hc : frameCommand f = c)
    (hh : handle f (s.beginHandling f) = (s.beginHandling f).replyTo f status result) :
    handleHead c handle s = .next ((s.without rest).queued (replyFor f status result)) := by
  rw [handleHead_of_canTake h hc, hh, State.replyTo_endHandling h]

section Named

variable {s : State} {f : Frame} {rest : List Frame} {c : Instr} {k : Byte} {handle : Frame → State → State}

/-- A frame refused for its form. -/
theorem handleHead_badForm (h : s.canTake f rest) (hc : frameCommand f = c) (hk : kindOf f = k)
    (hh : handle f (s.beginHandling f) = (s.beginHandling f).refuse f .badForm) :
    handleHead c handle s = .next ((s.without rest).queued ⟨tagOf f, k, .badForm, 0xFF, .none⟩) := by
  rw [handleHead_replies h hc hh, replyFor_badForm hk]

/-- A frame that names a stream, answered with one reply and not for its form. -/
theorem handleHead_named (h : s.canTake f rest) (hc : frameCommand f = c) (hk : kindOf f = k) (hnames : namesStream k = true)
    (hl : 3 ≤ f.length) {status : Status} {result : ReplyResult} (hs : status ≠ .badForm)
    (hh : handle f (s.beginHandling f) = (s.beginHandling f).replyTo f status result) :
    handleHead c handle s = .next ((s.without rest).queued ⟨tagOf f, k, status, byteAt f 2, result⟩) := by
  rw [handleHead_replies h hc hh, replyFor_named hk hnames hl hs]

end Named

/-! ## Requests that act on an open stream -/

theorem State.onOpen_badValue (s : State) (f : Frame) {b : Byte} (k : StreamId → Opening → State) (h : 64 ≤ b.toNat) :
    s.onOpen f b k = s.refuse f .badValue := by
  simp [State.onOpen, streamOf_eq_none h]

theorem State.onOpen_closed {s : State} (f : Frame) {b : Byte} {i : StreamId} (k : StreamId → Opening → State)
    (hb : b.toNat = i.val) (h : s.opening i = none) : s.onOpen f b k = s.refuse f .noStream := by
  simp [State.onOpen, streamOf_eq_some hb, h]

theorem State.onOpen_open {s : State} (f : Frame) {b : Byte} {i : StreamId} {o : Opening} (k : StreamId → Opening → State)
    (hb : b.toNat = i.val) (h : s.opening i = some o) : s.onOpen f b k = k i o := by
  simp [State.onOpen, streamOf_eq_some hb, h]

end Sys2Proof.Machine
end

section
/-! SUPPORT. QUERY (R18) and the bytes of its snapshots (R162). -/

namespace Sys2Proof.Machine

theorem handleQuery_badForm {f : Frame} (h : tagOf f = 0 ∨ f.length ≠ 3) (s : State) :
    handleQuery f s = s.refuse f .badForm := by
  have hnone : formed parseStream f = none := formed_none (h.imp_right fun hl => by rw [parseStream_eq, if_neg hl])
  simp [handleQuery, hnone]

theorem formed_parseStream {f : Frame} (htag : tagOf f ≠ 0) (hl : f.length = 3) :
    formed parseStream f = some (byteAt f 2) := by
  rw [formed_of_tag _ htag, parseStream_eq, if_pos hl]

theorem handleQuery_badValue {f : Frame} (htag : tagOf f ≠ 0) (hl : f.length = 3) (hbig : 64 ≤ (byteAt f 2).toNat)
    (s : State) : handleQuery f s = s.refuse f .badValue := by
  simp [handleQuery, formed_parseStream htag hl, streamOf_eq_none hbig]

theorem handleQuery_stream {f : Frame} (htag : tagOf f ≠ 0) (hl : f.length = 3) {i : StreamId}
    (hi : (byteAt f 2).toNat = i.val) (s : State) : handleQuery f s = s.replyTo f .done (s.snapshot i) := by
  simp [handleQuery, formed_parseStream htag hl, streamOf_eq_some hi]

theorem Opening.adopting_iff (o : Opening) : o.adopting = true ↔ o.playPos = none := Option.isNone_iff_eq_none

/-- The adopting mark and, unless it stands, the play position (R162). -/
theorem Opening.adopting_bytes (o : Opening) :
    [flagByte o.adopting] ++ playPosBytes o.playPos = match o.playPos with | none => [1] | some p => [0] ++ bytes16 p := by
  unfold Opening.adopting
  cases o.playPos <;> rfl

/-- The mask byte is the sum of the bits of its kinds (R160). -/
theorem NoticeMask.code_eq (m : NoticeMask) :
    m.code = (if m.state then 1 else 0) + (if m.discard then 2 else 0) + (if m.silent then 4 else 0) := by
  obtain ⟨state, discard, silent⟩ := m
  cases state <;> cases discard <;> cases silent <;> rfl

theorem Policy.code_eq (p : Policy) : p.code = match p with | .repeatLast => 0 | .safe => 1 := by cases p <;> rfl

/-- Settles O26: the four cases of handleQuery, and the snapshot's bytes with the adopting mark, the policy and the mask
written out. -/
theorem queryAnswersSnapshot : Obligations.QueryAnswersSnapshot := by
  refine ⟨fun s f rest h hk => ?_, Opening.adopting_iff, fun _ => rfl, fun g o buffered stalled => ?_⟩
  · have hc := frameCommand_query hk
    refine ⟨fun hbad => handleHead_badForm h hc hk (handleQuery_badForm hbad _),
      fun htag hl => ⟨fun hbig => ?_, fun i hi => ?_⟩⟩
    · exact handleHead_named h hc hk rfl hl.ge nofun (handleQuery_badValue htag hl hbig _)
    · exact handleHead_named h hc hk rfl hl.ge nofun (handleQuery_stream htag hl hi _)
  · show Snapshot.bytes g _ = _
    simp only [Snapshot.bytes, NoticeMask.code_eq, Policy.code_eq]
    rw [List.append_assoc _ [flagByte o.adopting], Opening.adopting_bytes]
    rfl

end Sys2Proof.Machine
end

section
/-! SUPPORT. OPEN (R6, R7): the checks in order, and the acceptance whole. -/

namespace Sys2Proof.Machine

/-- The batch of an OPEN is at most 16 when it is absent or its byte is. -/
theorem batch_le_iff (batch : Option Byte) : (batch.getD 0).toNat ≤ 16 ↔ ∀ b, batch = some b → b.toNat ≤ 16 := by
  cases batch <;> simp

/-- The ranges of R6 (2) are those of the model's check and of the stream number. -/
theorem OpenRequest.rangesGood_iff (q : OpenRequest) : q.rangesGood ↔ q.stream.toNat < 64 ∧ q.inRange = true := by
  unfold OpenRequest.rangesGood OpenRequest.inRange
  rw [decide_eq_true_iff, batch_le_iff]
  constructor
  · rintro ⟨hstream, hs1, hs2, hc, hring, hp1, hp2, hl1, hl2, hb⟩
    exact ⟨hstream, hs1, hs2, hc, hring, hp1, by omega, hl1, hl2, hb⟩
  · rintro ⟨hstream, hs1, hs2, hc, hring, hp1, hp2, hl1, hl2, hb⟩
    exact ⟨hstream, hs1, hs2, hc, hring, hp1, by omega, hl1, hl2, hb⟩

theorem RequestUnit.tableFull_iff (u : RequestUnit) : u.tableFull = true ↔ 8 ≤ u.pendingTable.length := decide_eq_true_iff

section Checks

variable {s : State} {q : OpenRequest} {i : StreamId}

/-! ### The checks of R6, each with those before it passed -/

theorem State.openRefusal_badValue (hr : q.inRange = false) : s.openRefusal q i = some .badValue := by
  simp [State.openRefusal, hr]

theorem State.openRefusal_streamInUse (hr : q.inRange = true) (ho : s.opening i ≠ none) :
    s.openRefusal q i = some .inUse := by
  simp [State.openRefusal, hr, Option.isSome_iff_ne_none.2 ho]

theorem State.openRefusal_pairInUse (hr : q.inRange = true) (ho : s.opening i = none) (hp : s.pairTaken q) :
    s.openRefusal q i = some .inUse := by
  simp [State.openRefusal, hr, ho, (s.pairHeld_iff q).2 hp]

theorem State.openRefusal_free (hr : q.inRange = true) (ho : s.opening i = none) (hp : ¬ s.pairTaken q) :
    s.openRefusal q i = if s.req.tableFull then some .tableFull
      else if s.ring.freeBlocks.length < q.ringSize / 32 then some .noSpace else none := by
  have hheld : s.pairHeld q.station q.channel = false :=
    Bool.eq_false_iff.2 fun h => hp ((s.pairHeld_iff q).1 h)
  simp [State.openRefusal, hr, ho, hheld]

theorem State.openRefusal_tableFull (hr : q.inRange = true) (ho : s.opening i = none) (hp : ¬ s.pairTaken q)
    (hfull : 8 ≤ s.req.pendingTable.length) : s.openRefusal q i = some .tableFull := by
  rw [State.openRefusal_free hr ho hp, if_pos (s.req.tableFull_iff.2 hfull)]

theorem State.openRefusal_room (hr : q.inRange = true) (ho : s.opening i = none) (hp : ¬ s.pairTaken q)
    (hroom : s.req.pendingTable.length < 8) :
    s.openRefusal q i = if s.ring.freeBlocks.length < q.ringSize / 32 then some .noSpace else none := by
  rw [State.openRefusal_free hr ho hp, if_neg fun hfull => by
    have := s.req.tableFull_iff.1 hfull
    omega]

end Checks

/-! ### The handling -/

/-- A take changes nothing that the checks of an OPEN read. -/
theorem State.openRefusal_beginHandling (s : State) (f : Frame) (q : OpenRequest) (i : StreamId) :
    (s.beginHandling f).openRefusal q i = s.openRefusal q i := rfl

theorem handleOpen_badForm {f : Frame} (h : tagOf f = 0 ∨ parseOpen f = none) (s : State) :
    handleOpen f s = s.refuse f .badForm := by
  simp [handleOpen, formed_none h]

theorem handleOpen_badStream {f : Frame} {q : OpenRequest} (htag : tagOf f ≠ 0) (hq : parseOpen f = some q)
    (hbig : 64 ≤ q.stream.toNat) (s : State) : handleOpen f s = s.refuse f .badValue := by
  simp [handleOpen, formed_of_tag _ htag, hq, streamOf_eq_none hbig]

theorem handleOpen_refused {f : Frame} {q : OpenRequest} {i : StreamId} {s : State} {status : Status} (htag : tagOf f ≠ 0)
    (hq : parseOpen f = some q) (hi : q.stream.toNat = i.val) (hr : s.openRefusal q i = some status) :
    handleOpen f s = s.refuse f status := by
  simp [handleOpen, formed_of_tag _ htag, hq, streamOf_eq_some hi, hr]

theorem handleOpen_accepted {f : Frame} {q : OpenRequest} {i : StreamId} {s : State} (htag : tagOf f ≠ 0)
    (hq : parseOpen f = some q) (hi : q.stream.toNat = i.val) (hr : s.openRefusal q i = none) :
    handleOpen f s = s.acceptOpen f q i := by
  simp [handleOpen, formed_of_tag _ htag, hq, streamOf_eq_some hi, hr]

section Taken

variable {s : State} {f : Frame} {rest : List Frame} {q : OpenRequest}

/-- An OPEN refused by a check after its form. -/
theorem open_refused {i : StreamId} {status : Status} (h : s.canTake f rest) (hk : kindOf f = 0x02) (htag : tagOf f ≠ 0)
    (hq : parseOpen f = some q) (hi : q.stream.toNat = i.val) (hs : status ≠ .badForm)
    (hr : s.openRefusal q i = some status) :
    exec .openStream s = .next ((s.without rest).queued ⟨tagOf f, 0x02, status, q.stream, .none⟩) := by
  obtain ⟨hl, hstream⟩ := parseOpen_stream hq
  rw [hstream]
  exact handleHead_named h (frameCommand_open hk) hk rfl hl hs
    (handleOpen_refused htag hq hi ((s.openRefusal_beginHandling f q i).trans hr))

/-- An OPEN with a field out of its range, the stream number among them. -/
theorem open_badValue (h : s.canTake f rest) (hk : kindOf f = 0x02) (htag : tagOf f ≠ 0) (hq : parseOpen f = some q)
    (hbad : ¬ q.rangesGood) :
    exec .openStream s = .next ((s.without rest).queued ⟨tagOf f, 0x02, .badValue, q.stream, .none⟩) := by
  rw [q.rangesGood_iff] at hbad
  by_cases hstream : q.stream.toNat < 64
  · have hrange : q.inRange = false := by simpa [hstream] using hbad
    exact open_refused (i := ⟨q.stream.toNat, hstream⟩) h hk htag hq rfl nofun (State.openRefusal_badValue hrange)
  · obtain ⟨hl, heq⟩ := parseOpen_stream hq
    have hbig : 64 ≤ q.stream.toNat := by omega
    rw [heq]
    exact handleHead_named h (frameCommand_open hk) hk rfl hl nofun (handleOpen_badStream htag hq hbig _)

end Taken

/-- Settles O17: each check of R6, in order, with the checks before it passed. -/
theorem openRefusedByFirstFailingCheck : Obligations.OpenRefusedByFirstFailingCheck := by
  intro s f rest h hk
  refine ⟨fun hbad => handleHead_badForm h (frameCommand_open hk) hk (handleOpen_badForm hbad _), fun q htag hq =>
    ⟨open_badValue h hk htag hq, fun hgood i hi => ?_⟩⟩
  have hr := (q.rangesGood_iff.1 hgood).2
  refine ⟨fun ho => ?_, fun ho hp => ?_, fun ho hp hfull => ?_, fun ho hp hroom hspace => ?_⟩
  · exact open_refused h hk htag hq hi nofun (State.openRefusal_streamInUse hr ho)
  · exact open_refused h hk htag hq hi nofun (State.openRefusal_pairInUse hr ho hp)
  · exact open_refused h hk htag hq hi nofun (State.openRefusal_tableFull hr ho hp hfull)
  · exact open_refused h hk htag hq hi nofun ((State.openRefusal_room hr ho hp hroom).trans (if_pos hspace))

/-! ### The acceptance -/

/-- A stream joins the sweep: an idle engine takes it at once (R30, R31). -/
theorem RingStore.joinSweep_eq (r : RingStore) (i : StreamId) :
    r.joinSweep i = { r with
      sweepQueue := if r.engine = .idle then r.sweepQueue else r.sweepQueue ++ [i]
      engine := if r.engine = .idle then .busy i 0 else r.engine } := by
  unfold RingStore.joinSweep
  cases he : r.engine <;> simp

/-- The record made by an accepted OPEN, field by field (R4, R5, R7). -/
theorem State.openedRecord_eq (s : State) (q : OpenRequest) (i : StreamId) :
    s.openedRecord q i =
      { generation := (s.stream i).generation + 1
        counters := {}
        opening := some
          { phase := .sweeping, station := q.station, channel := q.channel, ringSize := q.ringSize
            blockMap := s.ring.freeBlocks.take (q.ringSize / 32)
            playPos := q.start, freshCount := 0, missRun := 0, primeDepth := q.primeDepth, starveLimit := q.starveLimit
            policy := q.policy, safeValue := q.safeValue, lastPlayed := q.safeValue
            collectBatch := (match q.batch with | none => 0 | some b => b.toNat)
            mask := (match q.mask with | none => { state := true, discard := true, silent := true } | some m => m)
            activeSlots := s.plans.active.count (.stream i), silentRun := 0 } } := by
  unfold State.openedRecord OpenRequest.opening
  cases q.batch <;> cases q.mask <;> rfl

/-- An accepted OPEN with the frame gone and its handling ended, block by block. -/
theorem State.acceptOpen_endHandling {s : State} {f : Frame} {rest : List Frame} (h : s.canTake f rest) (q : OpenRequest)
    (i : StreamId) :
    ((s.beginHandling f).acceptOpen f q i).endHandling = State.entered
      { s.without rest with
        streams := s.streams.put i (s.openedRecord q i)
        ring := (s.ring.dropHead (q.ringSize / 32)).joinSweep i
        coll := { s.coll with tallies := s.coll.tallies.put i 0 } }
      ⟨tagOf f, .openOf i⟩ := by
  rw [← State.without_of_beginHandling h]
  rfl

/-- Settles O18: with every check of R6 passed the OPEN is accepted, and acceptOpen says every field. -/
theorem openAcceptedInOneClaim : Obligations.OpenAcceptedInOneClaim := by
  intro s f rest q i h hk htag hq hgood hi ho hp hroom hspace
  have hr := (q.rangesGood_iff.1 hgood).2
  have haccepted : s.openRefusal q i = none :=
    (State.openRefusal_room hr ho hp hroom).trans (if_neg (Nat.not_lt.2 hspace))
  have hhandled : handleOpen f (s.beginHandling f) = (s.beginHandling f).acceptOpen f q i :=
    handleOpen_accepted htag hq hi ((s.openRefusal_beginHandling f q i).trans haccepted)
  show handleHead .openStream handleOpen s = _
  rw [handleHead_of_canTake h (frameCommand_open hk), hhandled, State.acceptOpen_endHandling h, State.openedRecord_eq,
    RingStore.joinSweep_eq]
  rfl

end Sys2Proof.Machine
end

section
/-! SUPPORT. CLOSE (R9 to R12): refusals, the close at once, and the drain. -/

namespace Sys2Proof.Machine

/-! ## The body -/

theorem formed_parseClose {f : Frame} {d : Bool} (htag : tagOf f ≠ 0) (hl : f.length = 4)
    (hd : flagOf (byteAt f 3) = some d) : formed parseClose f = some (byteAt f 2, d) := by
  rw [formed_of_tag _ htag, parseClose_eq, if_pos hl, hd]
  rfl

theorem formed_parseClose_none {f : Frame} (h : tagOf f = 0 ∨ f.length ≠ 4 ∨ flagOf (byteAt f 3) = none) :
    formed parseClose f = none := by
  refine formed_none (h.imp_right fun hbad => ?_)
  rw [parseClose_eq]
  rcases hbad with hl | hd
  · rw [if_neg hl]
  · rw [hd]
    exact ite_self none

/-- A drain flag that is neither yes nor no is a fault of form. -/
theorem flagOf_eq_none {b : Byte} (h0 : b ≠ 0) (h1 : b ≠ 1) : flagOf b = none :=
  (if_neg h0).trans (if_neg h1)

/-! ## The close of an open stream, whole -/

/-- What closesTo says of two states holds with the handling of both ended. -/
theorem State.closesTo.endHandling {s t : State} {i : StreamId} {o : Opening} {drainEnded : Bool}
    (h : s.closesTo i o drainEnded t) : s.endHandling.closesTo i o drainEnded t.endHandling := by
  obtain ⟨h1, h2, h3, h4, h5, h6, h7, h8, h9, h10, h11, h12, h13, h14, h15, h16, h17, h18, -, h20, h21, h22⟩ := h
  exact ⟨h1, h2, h3, h4, h5, h6, h7, h8, h9, h10, h11, h12, h13, h14, h15, h16, h17, h18, rfl, h20, h21, h22⟩

/-- A close now: the stream closed with the frame gone, and the DONE behind its other replies (R10, R12). -/
theorem State.closeNow_endHandling {s : State} {f : Frame} {rest : List Frame} (h : s.canTake f rest) (hk : kindOf f = 0x03)
    (hl : f.length = 4) {i : StreamId} {o : Opening} (ho : s.opening i = some o) :
    ∃ t, (s.without rest).closesTo i o false t ∧
      ((s.beginHandling f).closeNow f i).endHandling = t.queued ⟨tagOf f, 0x03, .done, byteAt f 2, .none⟩ := by
  have hcloses : (s.beginHandling f).closesTo i o false ((s.beginHandling f).closeStream i false) :=
    State.closeStream_closesTo (s := s.beginHandling f) ho false
  refine ⟨((s.beginHandling f).closeStream i false).endHandling, ?_, ?_⟩
  · rw [← State.without_of_beginHandling h]
    exact hcloses.endHandling
  · rw [← replyFor_named hk rfl (by omega) (status := .done) nofun .none]
    rfl

/-! ## CLOSE at once -/

theorem handleCloseAtOnce_badForm {f : Frame} (h : formed parseClose f = none) (s : State) :
    handleCloseAtOnce f s = s.refuse f .badForm := by
  simp [handleCloseAtOnce, h]

theorem handleCloseAtOnce_formed {f : Frame} {b : Byte} {d : Bool} (h : formed parseClose f = some (b, d)) (s : State) :
    handleCloseAtOnce f s = s.onOpen f b fun i _ => s.closeNow f i := by
  simp [handleCloseAtOnce, h]

/-- Settles O19: the refusals of R9, and the close with the effects of R12. -/
theorem closeAtOnceClosesStream : Obligations.CloseAtOnceClosesStream := by
  intro s f rest h hk
  refine ⟨fun hc hbad => ?_, fun htag hl hdrain => ?_⟩
  · have hdrain : byteAt f 3 ≠ 1 := by
      rw [frameCommand_close hk] at hc
      intro hone
      rw [if_pos hone] at hc
      cases hc
    refine handleHead_badForm h hc hk (handleCloseAtOnce_badForm (formed_parseClose_none ?_) _)
    exact hbad.imp_right (Or.imp_right fun hzero => flagOf_eq_none hzero hdrain)
  · have hc : frameCommand f = .closeAtOnce := by
      rw [frameCommand_close hk, hdrain]
      rfl
    have hformed : formed parseClose f = some (byteAt f 2, false) := formed_parseClose htag hl (by rw [hdrain]; rfl)
    have hhandled := handleCloseAtOnce_formed hformed (s.beginHandling f)
    refine ⟨fun hbig => ?_, fun i hi => ⟨fun ho => ?_, fun o ho => ?_⟩⟩
    · exact handleHead_named h hc hk rfl (by omega) nofun (hhandled.trans (State.onOpen_badValue _ _ _ hbig))
    · exact handleHead_named h hc hk rfl (by omega) nofun (hhandled.trans (State.onOpen_closed _ _ hi ho))
    · obtain ⟨t, hcloses, hdone⟩ := State.closeNow_endHandling h hk hl ho
      refine ⟨t, hcloses, ?_⟩
      show handleHead .closeAtOnce handleCloseAtOnce s = _
      rw [handleHead_of_canTake h hc, hhandled, State.onOpen_open (s := s.beginHandling f) _ _ hi ho, hdone]

/-! ## CLOSE with drain -/

theorem handleCloseWithDrain_badForm {f : Frame} (h : formed parseClose f = none) (s : State) :
    handleCloseWithDrain f s = s.refuse f .badForm := by
  simp [handleCloseWithDrain, h]

theorem handleCloseWithDrain_formed {f : Frame} {b : Byte} {d : Bool} (h : formed parseClose f = some (b, d)) (s : State) :
    handleCloseWithDrain f s = s.onOpen f b fun i o => s.drainOrClose f i o := by
  simp [handleCloseWithDrain, h]

/-- A stream with nothing to drain is closed now (R11). -/
theorem State.drainOrClose_closes {s : State} {f : Frame} {i : StreamId} {o : Opening}
    (h : o.phase = .sweeping ∨ o.phase = .priming ∨ o.phase = .starved ∨
      (o.phase = .playing ∧ (o.activeSlots = 0 ∨ s.bus.state = .stopped))) : s.drainOrClose f i o = s.closeNow f i := by
  unfold State.drainOrClose
  rcases h with hp | hp | hp | ⟨hp, hnone⟩
  · rw [hp]
  · rw [hp]
  · rw [hp]
  · rw [hp]
    exact if_pos hnone

theorem State.drainOrClose_busy {s : State} {f : Frame} {i : StreamId} {o : Opening} (h : o.phase = .draining) :
    s.drainOrClose f i o = s.refuse f .busy := by
  unfold State.drainOrClose
  rw [h]

/-- A PLAYING stream with active slots on a bus that is not STOPPED begins to drain, if an entry can be made (R11). -/
theorem State.drainOrClose_drains {s : State} {f : Frame} {i : StreamId} {o : Opening} (hp : o.phase = .playing)
    (hslots : o.activeSlots ≠ 0) (hruns : s.bus.state ≠ .stopped) :
    s.drainOrClose f i o = if s.req.tableFull then s.refuse f .tableFull
      else (s.withOpening i (some { o with phase := .draining })).defer f (.closeOf i) := by
  unfold State.drainOrClose
  rw [hp]
  exact if_neg fun hnone => hnone.elim hslots hruns

/-- The beginning of a drain with the frame gone and its handling ended. -/
theorem State.drains_endHandling {s : State} {f : Frame} {rest : List Frame} (h : s.canTake f rest) (i : StreamId)
    (o : Opening) :
    (((s.beginHandling f).withOpening i (some { o with phase := .draining })).defer f (.closeOf i)).endHandling =
      State.entered
        { s.without rest with streams := s.streams.put i { s.stream i with opening := some { o with phase := .draining } } }
        ⟨tagOf f, .closeOf i⟩ := by
  rw [← State.without_of_beginHandling h]
  rfl

/-- Settles O20: the refusals of R9, and the cases of R10 and R11 by the stream's phase. -/
theorem closeWithDrainDrainsPlayingStream : Obligations.CloseWithDrainDrainsPlayingStream := by
  intro s f rest h hk hdrain
  have hc : frameCommand f = .closeWithDrain := by rw [frameCommand_close hk, if_pos hdrain]
  refine ⟨fun hbad => ?_, fun htag hl => ?_⟩
  · exact handleHead_badForm h hc hk
      (handleCloseWithDrain_badForm (formed_parseClose_none (hbad.imp_right Or.inl)) _)
  · have hformed : formed parseClose f = some (byteAt f 2, true) := formed_parseClose htag hl (by rw [hdrain]; rfl)
    have hhandled := handleCloseWithDrain_formed hformed (s.beginHandling f)
    refine ⟨fun hbig => ?_, fun i hi => ⟨fun ho => ?_, fun o ho => ?_⟩⟩
    · exact handleHead_named h hc hk rfl (by omega) nofun (hhandled.trans (State.onOpen_badValue _ _ _ hbig))
    · exact handleHead_named h hc hk rfl (by omega) nofun (hhandled.trans (State.onOpen_closed _ _ hi ho))
    · have hopen := hhandled.trans (State.onOpen_open (s := s.beginHandling f) f _ hi ho)
      refine ⟨fun hcloses => ?_, fun hbusy => ?_, fun hp hslots hruns => ?_⟩
      · obtain ⟨t, ht, hdone⟩ := State.closeNow_endHandling h hk hl ho
        refine ⟨t, ht, ?_⟩
        show handleHead .closeWithDrain handleCloseWithDrain s = _
        rw [handleHead_of_canTake h hc, hopen, State.drainOrClose_closes (s := s.beginHandling f) hcloses, hdone]
      · exact handleHead_named h hc hk rfl (by omega) nofun (hopen.trans (State.drainOrClose_busy hbusy))
      · have hdrains := hopen.trans (State.drainOrClose_drains (s := s.beginHandling f) hp hslots hruns)
        refine ⟨fun hfull => ?_, fun hroom => ?_⟩
        · exact handleHead_named h hc hk rfl (by omega) nofun
            (hdrains.trans (if_pos ((s.beginHandling f).req.tableFull_iff.2 hfull)))
        · rw [if_neg fun hfull => Nat.not_le.2 hroom ((s.beginHandling f).req.tableFull_iff.1 hfull)] at hdrains
          show handleHead .closeWithDrain handleCloseWithDrain s = _
          rw [handleHead_of_canTake h hc, hdrains, State.drains_endHandling h]

end Sys2Proof.Machine
end

section
/-! SUPPORT. Power-on reset (R165) and the state after reset. -/

namespace Sys2Proof.Machine

/-! ## Power-on reset -/

/-- The rate by the two straps (R125). -/
theorem rateOfStraps_eq (rate1 rate0 : Bool) :
    rateOfStraps rate1 rate0 = if rate1 then (if rate0 then .r12 else .r6) else (if rate0 then .r3 else .r1) := by
  cases rate1 <;> cases rate0 <;> rfl

theorem exec_power_rstHigh (s : State) (rate1 rate0 : Bool) :
    exec (.powerOnReset (.power true) rate1 rate0) s = .next (s.powerOn (some (rateOfStraps rate1 rate0)) false) := rfl

theorem exec_power_rstLow (s : State) (rate1 rate0 : Bool) :
    exec (.powerOnReset (.power false) rate1 rate0) s = .next (s.powerOn none true) := rfl

/-- A low pulse of RST resets from 1000 ns on, and is ignored below (R165). -/
theorem exec_rstLow (s : State) (ns : Nat) (rate1 rate0 : Bool) :
    exec (.powerOnReset (.rstLow ns) rate1 rate0) s = .next (if 1000 ≤ ns then s.powerOn none true else s) := by
  show Host.Outcome.next (s.onlyIf (decide (1000 ≤ ns)) (s.powerOn none true)) = _
  unfold State.onlyIf
  simp only [decide_eq_true_eq]

/-- Settles O3: each cause leaves the part in powerOn, with the straps read or not, but for a pulse too short. -/
theorem powerOnResetSetsEveryBlock : Obligations.PowerOnResetSetsEveryBlock := by
  intro s rate1 rate0 ns blank strapped
  refine ⟨?_, exec_power_rstLow s rate1 rate0, fun hlong => ?_, fun hshort => ?_⟩
  · rw [exec_power_rstHigh, rateOfStraps_eq]
    rfl
  · rw [exec_rstLow, if_pos hlong]
    rfl
  · rw [exec_rstLow, if_neg (Nat.not_le.2 hshort)]

/-! ## The state after reset -/

@[simp] theorem State.stream_reset (i : StreamId) : State.reset.stream i = {} := PerStream.at_replicate ..

@[simp] theorem State.opening_reset (i : StreamId) : State.reset.opening i = none := by
  unfold State.opening
  rw [State.stream_reset]

@[simp] theorem State.buffer_reset (i : StreamId) : State.reset.coll.buffers.at i = [] := PerStream.at_replicate ..

@[simp] theorem State.tally_reset (i : StreamId) : State.reset.coll.tallies.at i = 0 := PerStream.at_replicate ..

@[simp] theorem State.noticesOf_reset (i : StreamId) : State.reset.noticesOf i = {} := PerStream.at_replicate ..

theorem State.isSweeping_reset (i : StreamId) : ¬ State.reset.isSweeping i := by
  rintro ⟨o, ho, -⟩
  simp at ho

theorem State.sweeps_reset (i : StreamId) : ¬ State.reset.ring.sweeps i := by
  rintro ⟨v, hv⟩
  cases hv

theorem State.bufferFull_reset (i : StreamId) : ¬ State.reset.bufferFull i := by
  rintro ⟨o, ho, -⟩
  simp at ho

theorem State.pairsDistinct_reset : State.reset.pairsDistinct := fun i j oi oj hi => by simp at hi

theorem State.freeBlocks_reset : State.reset.ring.freeBlocks = List.finRange 256 := by simp only [State.reset]

/-- All blocks are free, each once (R37). -/
theorem State.allBlocks_reset : State.reset.allBlocks = List.finRange 256 := by
  have hnone : allStreams.flatMap State.reset.blocksOf = [] :=
    List.flatMap_eq_nil_iff.2 fun i _ => by simp [State.blocksOf]
  unfold State.allBlocks
  rw [hnone, List.append_nil, State.freeBlocks_reset]

theorem State.blocksOnce_reset : State.reset.blocksOnce := fun b => by
  rw [State.allBlocks_reset]
  exact List.count_eq_one_of_mem (List.nodup_finRange 256) (List.mem_finRange b)

theorem State.sweepsOk_reset : State.reset.sweepsOk :=
  ⟨List.nodup_nil,
    fun i => ⟨fun h => absurd h List.not_mem_nil, fun h => absurd h.1 (State.isSweeping_reset i)⟩,
    fun i h => absurd h (State.sweeps_reset i), fun _ => rfl⟩

theorem NoticeCell.ok_clear : NoticeCell.ok {} := ⟨nofun, fun h => absurd rfl h⟩

theorem State.noticesOk_reset : State.reset.noticesOk := by
  refine ⟨NoticeCell.ok_clear, fun i => ?_⟩
  rw [State.noticesOf_reset]
  exact ⟨NoticeCell.ok_clear, NoticeCell.ok_clear, NoticeCell.ok_clear⟩

theorem State.stallsOk_reset : State.reset.stallsOk :=
  ⟨List.nodup_nil,
    fun i => ⟨fun h => absurd h List.not_mem_nil, fun h => absurd h (State.bufferFull_reset i)⟩,
    fun h => absurd rfl h, Nat.zero_le _, fun i _ => State.buffer_reset i, fun i o ho => by simp at ho, fun i => by simp⟩

theorem State.pendingOk_reset : State.reset.pendingOk := by
  refine ⟨nofun, fun i h => ?_, rfl, rfl⟩
  obtain ⟨o, ho, -⟩ := h
  simp at ho

theorem State.contentsOk_reset : State.reset.contentsOk :=
  ⟨fun i o ho => by simp at ho, fun i v o hv => by cases hv⟩

/-- Settles O5: the values are those of State.reset, and each law has its own lemma above. -/
theorem resetStateHoldsEveryLaw : Obligations.ResetStateHoldsEveryLaw := by
  refine ⟨State.stream_reset, State.freeBlocks_reset, rfl, rfl, rfl, rfl, rfl, rfl, rfl, rfl, rfl, rfl,
    fun i => ⟨State.buffer_reset i, State.tally_reset i⟩, rfl, rfl, rfl, rfl, rfl, rfl, rfl, rfl, rfl, rfl,
    State.noticesOf_reset, rfl, rfl, rfl, rfl, RingStore.wf_reset, ⟨Nat.zero_le _, Nat.zero_le _⟩,
    ⟨Nat.zero_le _, Nat.zero_le _, Nat.zero_le _⟩, State.pairsDistinct_reset, State.blocksOnce_reset,
    fun i o ho => ?_, State.sweepsOk_reset, State.plansOk_blank rfl rfl, State.slotsCounted_closed State.opening_reset,
    State.noticesOk_reset, State.stallsOk_reset, State.pendingOk_reset, fun i o ho => ?_, State.contentsOk_reset,
    State.busOk_blank rfl, State.drainsOk_closed State.opening_reset⟩
  · simp at ho
  · simp at ho

end Sys2Proof.Machine
end

section
/-! SUPPORT. TUNE (R14 to R17): its checks, and the whole of what it writes. -/

namespace Sys2Proof.Machine

/-! ## The checks -/

/-- The ranges of R14 (5) are those of the model's check. -/
theorem TuneRequest.rangesGood_iff (q : TuneRequest) (ringSize : Nat) :
    q.rangesGood ringSize ↔ q.inRange ringSize = true := by
  obtain ⟨stream, primeDepth, starveLimit, policy, safeValue, batch, mask⟩ := q
  have hprime : (∀ p, primeDepth = some p → 1 ≤ p.toNat ∧ p.toNat + 1 ≤ ringSize) ↔
      (match primeDepth with | none => true | some p => decide (1 ≤ p.toNat ∧ p.toNat ≤ ringSize - 1)) = true := by
    cases primeDepth with
    | none => simp
    | some p =>
      simp only [Option.some.injEq, forall_eq', decide_eq_true_eq]
      omega
  have hlimit : (∀ l, starveLimit = some l → 1 ≤ l.toNat ∧ l.toNat ≤ 31) ↔
      (match starveLimit with | none => true | some l => decide (1 ≤ l.toNat ∧ l.toNat ≤ 31)) = true := by
    cases starveLimit <;> simp
  have hbatch : (∀ b, batch = some b → b.toNat ≤ 16) ↔
      (match batch with | none => true | some b => decide (b.toNat ≤ 16)) = true := by
    cases batch <;> simp
  unfold TuneRequest.rangesGood TuneRequest.inRange
  rw [Bool.and_eq_true, Bool.and_eq_true, and_assoc]
  exact and_congr hprime (and_congr hlimit hbatch)

theorem State.tuneStream_wrongState {s : State} {f : Frame} {q : TuneRequest} {i : StreamId} {o : Opening}
    (h : o.phase = .sweeping ∨ o.phase = .draining) : s.tuneStream f q i o = s.refuse f .wrongState := if_pos h

theorem State.tuneStream_badValue {s : State} {f : Frame} {q : TuneRequest} {i : StreamId} {o : Opening}
    (hs : o.phase ≠ .sweeping) (hd : o.phase ≠ .draining) (h : ¬ q.rangesGood o.ringSize) :
    s.tuneStream f q i o = s.refuse f .badValue := by
  have hbad : q.inRange o.ringSize = false := by
    rw [q.rangesGood_iff] at h
    exact Bool.eq_false_iff.2 h
  simp [State.tuneStream, hs, hd, hbad]

theorem State.tuneStream_applied {s : State} {f : Frame} {q : TuneRequest} {i : StreamId} {o : Opening}
    (hs : o.phase ≠ .sweeping) (hd : o.phase ≠ .draining) (h : q.rangesGood o.ringSize) :
    s.tuneStream f q i o = (s.applyTune q i o).replyTo f .done (.state ((s.applyTune q i o).stream i).state) := by
  simp [State.tuneStream, hs, hd, (q.rangesGood_iff _).1 h]

theorem handleTune_badForm {f : Frame} (h : tagOf f = 0 ∨ parseTune f = none) (s : State) :
    handleTune f s = s.refuse f .badForm := by
  simp [handleTune, formed_none h]

theorem handleTune_formed {f : Frame} {q : TuneRequest} (htag : tagOf f ≠ 0) (hq : parseTune f = some q) (s : State) :
    handleTune f s = s.onOpen f q.stream fun i o => s.tuneStream f q i o := by
  simp [handleTune, formed_of_tag _ htag, hq]

/-- A TUNE refused by a check after its form. -/
theorem tune_refused {s : State} {f : Frame} {rest : List Frame} {q : TuneRequest} {status : Status} (h : s.canTake f rest)
    (hk : kindOf f = 0x05) (hq : parseTune f = some q) (hs : status ≠ .badForm)
    (hh : handleTune f (s.beginHandling f) = (s.beginHandling f).refuse f status) :
    exec .tune s = .next ((s.without rest).queued ⟨tagOf f, 0x05, status, q.stream, .none⟩) := by
  obtain ⟨hl, hstream⟩ := parseTune_stream hq
  rw [hstream]
  exact handleHead_named h (frameCommand_tune hk) hk rfl hl hs hh

/-! ## One stream rewritten -/

/-- The state with the record and the notice cells of one stream, and the Return Collector, replaced: all that a TUNE can
touch. -/
def State.retuned (s : State) (i : StreamId) (r : StreamRec) (n : StreamNotices) (d : Collector) : State :=
  ((s.withStream i r).withNotices i n).withColl d

section Retuned

variable (s : State) (i : StreamId) (r : StreamRec) (n : StreamNotices) (d : Collector)

@[simp] theorem State.retuned_coll : (s.retuned i r n d).coll = d := rfl

@[simp] theorem State.stream_retuned_self : (s.retuned i r n d).stream i = r := PerStream.at_put_self ..

@[simp] theorem State.stream_retuned_ne {j : StreamId} (h : j ≠ i) : (s.retuned i r n d).stream j = s.stream j :=
  PerStream.at_put_ne _ _ h

@[simp] theorem State.opening_retuned_self : (s.retuned i r n d).opening i = r.opening := by
  unfold State.opening
  rw [State.stream_retuned_self]

@[simp] theorem State.counters_retuned_self : (s.retuned i r n d).counters i = r.counters := by
  unfold State.counters
  rw [State.stream_retuned_self]

@[simp] theorem State.noticesOf_retuned_self : (s.retuned i r n d).noticesOf i = n := PerStream.at_put_self ..

@[simp] theorem State.noticesOf_retuned_ne {j : StreamId} (h : j ≠ i) :
    (s.retuned i r n d).noticesOf j = s.noticesOf j := PerStream.at_put_ne _ _ h

/-- A stream rewritten twice is rewritten once. -/
@[simp] theorem State.retuned_retuned (r' : StreamRec) (n' : StreamNotices) (d' : Collector) :
    (s.retuned i r n d).retuned i r' n' d' = s.retuned i r' n' d' := by
  have hstreams : (s.streams.put i r).put i r' = s.streams.put i r' := PerStream.put_put ..
  have hnotices : (s.req.notices.put i n).put i n' = s.req.notices.put i n' := PerStream.put_put ..
  show { s with
    streams := (s.streams.put i r).put i r'
    req := { s.req with notices := (s.req.notices.put i n).put i n' }
    coll := d' } = _
  rw [hstreams, hnotices]
  rfl

theorem State.retuned_same : s.retuned i (s.stream i) (s.noticesOf i) s.coll = s := by
  show { s with
    streams := s.streams.put i (s.streams.at i)
    req := { s.req with notices := s.req.notices.put i (s.req.notices.at i) } } = s
  rw [PerStream.put_at, PerStream.put_at]

end Retuned

/-! ## The parts of a TUNE -/

/-- The first claim of a TUNE: the fields, and the notice cells under the new mask (R15, R17). -/
theorem State.fieldsTuned_eq (s : State) (i : StreamId) (o : Opening) (n : StreamNotices) :
    (s.withOpening i (some o)).withNotices i n = s.retuned i { s.stream i with opening := some o } n s.coll := rfl

/-- The batch: collect dropped and the Return Collector (R119 to R121). -/
theorem State.retuneBatch_eq (s : State) (i : StreamId) (old new : Nat) :
    s.retuneBatch i old new = s.retuned i
      { s.stream i with counters :=
        { s.counters i with collectDropped := ((s.retuneBatch i old new).counters i).collectDropped } }
      (s.noticesOf i) (s.retuneBatch i old new).coll := by
  obtain ⟨n, d, h⟩ := s.retuneBatch_frame i old new
  have hdropped : ((s.retuneBatch i old new).counters i).collectDropped = n := by rw [h]; simp
  have hcoll : (s.retuneBatch i old new).coll = d := by rw [h]; rfl
  rw [hdropped, hcoll, h, ← State.withNotices_noticesOf (s.withCounters i _) i]
  rfl

/-- The start of playing that comparison (1) of R16 finds due. -/
def Opening.plays (o : Opening) : Bool := decide (o.phase = .priming ∧ o.primeDepth ≤ o.freshCount)

/-- The starving that comparison (2) of R16 finds due. -/
def Opening.starves (o : Opening) : Bool := decide (o.phase = .playing ∧ o.starveLimit ≤ o.missRun)

/-- The record after comparison (1) of R16. -/
def Opening.afterPlay (o : Opening) : Opening := { o with phase := if o.plays then .playing else o.phase }

/-- The record after comparison (2) of R16. -/
def Opening.afterStarve (o : Opening) : Opening := { o with phase := if o.starves then .starved else o.phase }

/-- The starve events counter after comparison (2) of R16. -/
def StreamCounters.countStarve (c : StreamCounters) (starves : Bool) : StreamCounters :=
  { c with starveEvents := c.starveEvents + (if starves then 1 else 0) }

/-- The STATE cell after a comparison of R16: raised if a change of state is due and the mask has the kind. -/
def StreamNotices.noteState (n : StreamNotices) (due : Bool) (m : NoticeMask) : StreamNotices :=
  { n with state := n.state.raisedIf (due && m.state) 1 }

theorem Opening.afterPlay_of_not {o : Opening} (h : o.plays = false) : o.afterPlay = o := by simp [Opening.afterPlay, h]

theorem Opening.afterStarve_of_not {o : Opening} (h : o.starves = false) : o.afterStarve = o := by
  simp [Opening.afterStarve, h]

theorem StreamNotices.noteState_false (n : StreamNotices) (m : NoticeMask) : n.noteState false m = n := rfl

theorem StreamCounters.countStarve_false (c : StreamCounters) : c.countStarve false = c := by
  simp [StreamCounters.countStarve]

theorem StreamRec.eta_opening {r : StreamRec} {o : Opening} (h : r.opening = some o) : { r with opening := some o } = r := by
  cases r
  cases h
  rfl

/-- Comparison (1) of R16, whole. -/
theorem State.comparePlay_eq {s : State} {i : StreamId} {o : Opening} (h : s.opening i = some o) :
    s.comparePlay i = s.retuned i { s.stream i with opening := some o.afterPlay }
      ((s.noticesOf i).noteState o.plays o.mask) s.coll := by
  unfold State.comparePlay
  rw [h]
  cases hp : o.plays with
  | false =>
    rw [Opening.afterPlay_of_not hp, StreamRec.eta_opening h, StreamNotices.noteState_false, State.retuned_same]
    exact if_neg (of_decide_eq_false hp)
  | true =>
    refine (if_pos (of_decide_eq_true hp)).trans ?_
    rw [State.startPlaying_eq]
    unfold Opening.afterPlay
    rw [if_pos hp]
    rfl

theorem State.withOpening_withCounters (s : State) (i : StreamId) (o : Option Opening) (c : StreamCounters) :
    (s.withOpening i o).withCounters i c = s.withStream i { s.stream i with opening := o, counters := c } := by
  unfold State.withCounters
  rw [State.stream_withOpening_self]
  exact congrArg s.withStreams (PerStream.put_put ..)

/-- Comparison (2) of R16, whole. -/
theorem State.compareStarve_eq {s : State} {i : StreamId} {o : Opening} (h : s.opening i = some o) :
    s.compareStarve i = s.retuned i
      { s.stream i with opening := some o.afterStarve, counters := (s.counters i).countStarve o.starves }
      ((s.noticesOf i).noteState o.starves o.mask) s.coll := by
  unfold State.compareStarve
  rw [h]
  cases hp : o.starves with
  | false =>
    have hrecord : { s.stream i with opening := some o, counters := s.counters i } = s.stream i := StreamRec.eta_opening h
    rw [Opening.afterStarve_of_not hp, StreamCounters.countStarve_false, hrecord, StreamNotices.noteState_false,
      State.retuned_same]
    exact if_neg (of_decide_eq_false hp)
  | true =>
    refine (if_pos (of_decide_eq_true hp)).trans ?_
    rw [State.starve_eq, State.withOpening_withCounters]
    unfold Opening.afterStarve
    rw [if_pos hp]
    rfl

/-! ## A TUNE, whole -/

/-- The record a TUNE leaves: its fields, then the two comparisons of R16 in order. -/
def Opening.afterTune (o : Opening) (q : TuneRequest) : Opening := (o.tuned q).afterPlay.afterStarve

/-- The notice cells a TUNE leaves: the mask first, then the comparisons of R16 (R17). -/
def StreamNotices.afterTune (n : StreamNotices) (o : Opening) (q : TuneRequest) : StreamNotices :=
  ((n.remask o.mask (o.tuned q).mask).noteState (o.tuned q).plays (o.tuned q).mask).noteState
    (o.tuned q).afterPlay.starves (o.tuned q).mask

/-- The state of a TUNE after its fields and the mask, before the batch (R15, R17). -/
def State.refielded (s : State) (q : TuneRequest) (i : StreamId) (o : Opening) : State :=
  s.retuned i { s.stream i with opening := some (o.tuned q) } ((s.noticesOf i).remask o.mask (o.tuned q).mask) s.coll

/-- The state of a TUNE after the batch, before the comparisons of R16. -/
def State.rebatched (s : State) (q : TuneRequest) (i : StreamId) (o : Opening) : State :=
  (s.refielded q i o).retuneBatch i o.collectBatch (o.tuned q).collectBatch

/-- What a TUNE writes, whole: the record, the notice cells and the Return Collector. -/
theorem State.applyTune_eq (s : State) (q : TuneRequest) (i : StreamId) (o : Opening) :
    s.applyTune q i o = s.retuned i
      { s.stream i with
        opening := some (o.afterTune q)
        counters := { s.counters i with collectDropped := ((s.rebatched q i o).counters i).collectDropped }.countStarve
          (o.tuned q).afterPlay.starves }
      ((s.noticesOf i).afterTune o q) (s.rebatched q i o).coll := by
  have hbatch := (s.refielded q i o).retuneBatch_eq i o.collectBatch (o.tuned q).collectBatch
  unfold State.refielded at hbatch
  unfold State.applyTune State.compareTuned
  rw [State.fieldsTuned_eq, hbatch, State.retuned_retuned, State.comparePlay_eq (o := o.tuned q) (by simp),
    State.retuned_retuned, State.compareStarve_eq (o := (o.tuned q).afterPlay) (by simp), State.retuned_retuned]
  simp only [State.stream_retuned_self, State.noticesOf_retuned_self, State.counters_retuned_self, State.retuned_coll]
  rfl

/-- The record a TUNE leaves, with the collect dropped counter as the batch left it. -/
def State.tunedRecord (s : State) (q : TuneRequest) (i : StreamId) (o : Opening) (dropped : Word) : StreamRec :=
  { s.stream i with
    opening := some (o.afterTune q)
    counters := { s.counters i with collectDropped := dropped }.countStarve (o.tuned q).afterPlay.starves }

/-- A TUNE that passes the checks of R14, whole: one stream rewritten, and the DONE with the state it leaves. -/
theorem State.tunes.exec_eq {s : State} {f : Frame} {rest : List Frame} {q : TuneRequest} {i : StreamId} {o : Opening}
    (h : s.tunes f rest q i o) :
    ∃ dropped d, exec .tune s = .next
      (((s.without rest).retuned i (s.tunedRecord q i o dropped) ((s.noticesOf i).afterTune o q) d).queued
        ⟨tagOf f, 0x05, .done, q.stream, .state (o.afterTune q).phase.state⟩) := by
  obtain ⟨htake, hk, htag, hq, hi, ho, hs, hd, hgood⟩ := h
  obtain ⟨hl, hstream⟩ := parseTune_stream hq
  refine ⟨(((s.beginHandling f).rebatched q i o).counters i).collectDropped, ((s.beginHandling f).rebatched q i o).coll, ?_⟩
  show handleHead .tune handleTune s = _
  rw [handleHead_of_canTake htake (frameCommand_tune hk), handleTune_formed htag hq,
    State.onOpen_open (s := s.beginHandling f) f _ hi ho, State.tuneStream_applied hs hd hgood, State.applyTune_eq,
    State.stream_retuned_self, hstream, ← replyFor_named hk rfl hl (status := .done) nofun,
    ← State.without_of_beginHandling htake]
  rfl

/-! ## The fields of a TUNE, in the words of R14 to R17 -/

section Fields

variable (o : Opening) (q : TuneRequest)

theorem Opening.tuned_primeDepth :
    (o.tuned q).primeDepth = match q.primeDepth with | none => o.primeDepth | some p => p.toNat := by
  unfold Opening.tuned
  cases q.primeDepth <;> rfl

theorem Opening.tuned_starveLimit :
    (o.tuned q).starveLimit = match q.starveLimit with | none => o.starveLimit | some l => l.toNat := by
  unfold Opening.tuned
  cases q.starveLimit <;> rfl

theorem Opening.tuned_policy : (o.tuned q).policy = match q.policy with | none => o.policy | some p => p := by
  unfold Opening.tuned
  cases q.policy <;> rfl

theorem Opening.tuned_safeValue : (o.tuned q).safeValue = match q.safeValue with | none => o.safeValue | some v => v := by
  unfold Opening.tuned
  cases q.safeValue <;> rfl

theorem Opening.tuned_collectBatch :
    (o.tuned q).collectBatch = match q.batch with | none => o.collectBatch | some b => b.toNat := by
  unfold Opening.tuned
  cases q.batch <;> rfl

theorem Opening.tuned_mask : (o.tuned q).mask = match q.mask with | none => o.mask | some m => m := by
  unfold Opening.tuned
  cases q.mask <;> rfl

theorem Opening.tuned_plays :
    (o.tuned q).plays = decide (o.phase = .priming ∧ (o.tuned q).primeDepth ≤ o.freshCount) := rfl

/-- The phase after comparison (1) of R16. -/
theorem Opening.afterPlay_tuned_phase : (o.tuned q).afterPlay.phase =
    if o.phase = .priming ∧ (o.tuned q).primeDepth ≤ o.freshCount then .playing else o.phase := by
  simp only [Opening.afterPlay, Opening.tuned_plays, decide_eq_true_eq]
  rfl

theorem Opening.afterPlay_tuned_starves : (o.tuned q).afterPlay.starves =
    decide ((o.tuned q).afterPlay.phase = .playing ∧ (o.tuned q).starveLimit ≤ o.missRun) := rfl

/-- The phase after both comparisons of R16. -/
theorem Opening.afterTune_phase : (o.afterTune q).phase =
    if (o.tuned q).afterPlay.phase = .playing ∧ (o.tuned q).starveLimit ≤ o.missRun then .starved
    else (o.tuned q).afterPlay.phase := by
  simp only [Opening.afterTune, Opening.afterStarve, Opening.afterPlay_tuned_starves, decide_eq_true_eq]

end Fields

/-- Only the fields that a TUNE can carry and the phase differ after it. -/
theorem Opening.afterTune_eq {o : Opening} {q : TuneRequest} {prime limit batch : Nat} {policy : Policy} {safe : Word}
    {mask : NoticeMask} {phase : Phase} (hprime : (o.tuned q).primeDepth = prime) (hlimit : (o.tuned q).starveLimit = limit)
    (hpolicy : (o.tuned q).policy = policy) (hsafe : (o.tuned q).safeValue = safe)
    (hbatch : (o.tuned q).collectBatch = batch) (hmask : (o.tuned q).mask = mask) (hphase : (o.afterTune q).phase = phase) :
    o.afterTune q = { o with
      primeDepth := prime, starveLimit := limit, policy := policy, safeValue := safe, collectBatch := batch, mask := mask
      phase := phase } := by
  subst hprime hlimit hpolicy hsafe hbatch hmask hphase
  rfl

/-- Of the counters only starve events, by comparison (2) of R16, and collect dropped differ after a TUNE. -/
theorem StreamRec.counters_of_tuned {s : State} {q : TuneRequest} {i : StreamId} {o : Opening} {dropped : Word} {p : Prop}
    [Decidable p] {r : StreamRec} (hr : r = s.tunedRecord q i o dropped)
    (hstarves : (o.tuned q).afterPlay.starves = decide p) :
    r.counters = { (s.stream i).counters with
      starveEvents := (s.stream i).counters.starveEvents + (if p then 1 else 0)
      collectDropped := r.counters.collectDropped } := by
  subst hr
  unfold State.tunedRecord
  rw [hstarves]
  by_cases hp : p <;> simp [StreamCounters.countStarve, State.counters, hp]

/-- Settles O23: the refusals of R14, and the one stream that State.tunes.exec_eq says a TUNE rewrites. -/
theorem tuneWritesFieldsAndCompares : Obligations.TuneWritesFieldsAndCompares := by
  refine ⟨fun s f rest h hk => ⟨fun hbad => ?_, fun q htag hq => ?_⟩, fun s f rest q i o h => ?_⟩
  · exact handleHead_badForm h (frameCommand_tune hk) hk (handleTune_badForm hbad _)
  · have hhandled := handleTune_formed htag hq (s.beginHandling f)
    refine ⟨fun hbig => ?_, fun i hi => ⟨fun ho => ?_, fun o ho => ?_⟩⟩
    · exact tune_refused h hk hq nofun (hhandled.trans (State.onOpen_badValue _ _ _ hbig))
    · exact tune_refused h hk hq nofun (hhandled.trans (State.onOpen_closed _ _ hi ho))
    · have hopen := hhandled.trans (State.onOpen_open (s := s.beginHandling f) f _ hi ho)
      exact ⟨fun hp => tune_refused h hk hq nofun (hopen.trans (State.tuneStream_wrongState hp)),
        fun hs hd hbad => tune_refused h hk hq nofun (hopen.trans (State.tuneStream_badValue hs hd hbad))⟩
  · intro prime limit first last
    have hprime : (o.tuned q).primeDepth = prime := o.tuned_primeDepth q
    have hlimit : (o.tuned q).starveLimit = limit := o.tuned_starveLimit q
    have hfirst : (o.tuned q).afterPlay.phase = first := by rw [o.afterPlay_tuned_phase q, hprime]
    have hlast : (o.afterTune q).phase = last := by rw [o.afterTune_phase q, hfirst, hlimit]
    have hstarves : (o.tuned q).afterPlay.starves = decide (first = .playing ∧ limit ≤ o.missRun) := by
      rw [o.afterPlay_tuned_starves q, hfirst, hlimit]
    obtain ⟨dropped, d, hexec⟩ := h.exec_eq
    obtain ⟨⟨-, -, hidle, -, -⟩, -⟩ := h
    rw [hlast] at hexec
    have hstream := State.stream_retuned_self (s.without rest) i (s.tunedRecord q i o dropped)
      ((s.noticesOf i).afterTune o q) d
    have hgeneration : (s.tunedRecord q i o dropped).generation = (s.stream i).generation := rfl
    refine ⟨_, hexec, ?_, ?_, ?_, fun j hj => ?_, rfl, rfl, rfl, rfl, hidle, rfl, rfl, rfl, rfl, rfl, rfl, rfl⟩
    · exact (congrArg StreamRec.opening hstream).trans (congrArg some (Opening.afterTune_eq hprime hlimit
        (o.tuned_policy q) (o.tuned_safeValue q) (o.tuned_collectBatch q) (o.tuned_mask q) hlast))
    · exact (congrArg StreamRec.generation hstream).trans hgeneration
    · exact StreamRec.counters_of_tuned hstream hstarves
    · exact State.stream_retuned_ne (s.without rest) i (s.tunedRecord q i o dropped) ((s.noticesOf i).afterTune o q) d hj

/-! ## The notice set (R17) -/

/-- An occurrence count raised by 1 holds at FFFFFFFFH (R142). -/
theorem holdAdd_one (c : Word) : holdAdd c 1 = if c = 0xFFFFFFFF#32 then c else c + 1 := by
  unfold holdAdd
  split
  · next h => subst h; rfl
  · next h =>
    have hlt : c.toNat + 1 ≤ 4294967295 := by
      have hne : c.toNat ≠ 4294967295 := fun he => h (BitVec.eq_of_toNat_eq he)
      have := c.isLt
      omega
    rw [Nat.min_eq_left hlt]
    apply BitVec.eq_of_toNat_eq
    simp

/-- A cell raised by 1 where it is due and the mask has its kind (R155). -/
theorem NoticeCell.raisedIf_one (c : NoticeCell) (p : Prop) [Decidable p] (masked : Bool) :
    c.raisedIf (decide p && masked) 1 = if p ∧ masked = true then
      { flag := true, count := if c.count = 0xFFFFFFFF#32 then c.count else c.count + 1 } else c := by
  unfold NoticeCell.raisedIf
  simp only [Bool.and_eq_true, decide_eq_true_eq]
  rw [← holdAdd_one]
  rfl

/-- A kind in both masks keeps its cell, any other begins clear (R17). -/
theorem keptCell_eq (old new : Bool) (c : NoticeCell) :
    (if old && new then c else NoticeCell.clear) = if old = true ∧ new = true then c else { flag := false, count := 0 } := by
  simp only [Bool.and_eq_true]
  rfl

/-- Comparison (2) of R16 is due for a stream that plays, or that comparison (1) sets playing. -/
theorem Opening.afterPlay_starves_iff (o : Opening) (q : TuneRequest) :
    (o.tuned q).afterPlay.starves = decide ((o.phase = .playing ∨
      (o.phase = .priming ∧ (o.tuned q).primeDepth ≤ o.freshCount)) ∧ (o.tuned q).starveLimit ≤ o.missRun) := by
  rw [Opening.afterPlay_tuned_starves, Opening.afterPlay_tuned_phase]
  refine decide_eq_decide.2 (and_congr_left' ?_)
  split
  · next h => simp [h]
  · next h => simp [h]

/-- Settles O24: the cells that State.tunes.exec_eq says a TUNE leaves, the mask first and then the comparisons. -/
theorem tuneMaskActsOnPendingNotices : Obligations.TuneMaskActsOnPendingNotices := by
  intro s f rest q i o h mask prime limit plays starves kept raised
  have hmask : (o.tuned q).mask = mask := o.tuned_mask q
  have hprime : (o.tuned q).primeDepth = prime := o.tuned_primeDepth q
  have hlimit : (o.tuned q).starveLimit = limit := o.tuned_starveLimit q
  have hplays : (o.tuned q).plays = decide plays := by rw [o.tuned_plays q, hprime]
  have hstarves : (o.tuned q).afterPlay.starves = decide starves := by rw [o.afterPlay_starves_iff q, hprime, hlimit]
  have hraised : ∀ (p : Prop) [Decidable p] (c : NoticeCell), c.raisedIf (decide p && mask.state) 1 = raised p c :=
    fun p _ c => c.raisedIf_one p mask.state
  obtain ⟨dropped, d, hexec⟩ := h.exec_eq
  refine ⟨_, hexec, ?_, fun j hj => ?_⟩
  · have hcells := State.noticesOf_retuned_self (s.without rest) i (s.tunedRecord q i o dropped)
      ((s.noticesOf i).afterTune o q) d
    refine hcells.trans ?_
    unfold StreamNotices.afterTune
    rw [hmask, hplays, hstarves]
    refine (StreamNotices.mk.injEq ..).mpr ⟨?_, keptCell_eq .., keptCell_eq ..⟩
    exact (hraised starves _).trans (congrArg (fun c => raised starves c)
      ((hraised plays _).trans (congrArg (fun c => raised plays c) (keptCell_eq ..))))
  · exact State.noticesOf_retuned_ne (s.without rest) i (s.tunedRecord q i o dropped) ((s.noticesOf i).afterTune o q) d hj

end Sys2Proof.Machine
end

section
/-! SUPPORT. The ring of one stream: where its entries lie, its two laws (R25), and what a sample written, an entry consumed
and the play position advanced do to them (R23, R24, R45, R91 to R93). -/

namespace Sys2Proof.Machine

/-! ## The entries of a ring -/

theorem Opening.ringEntry_eq_some {o : Opening} {x k : Nat} :
    o.ringEntry x = some k ↔ ∃ b, o.blockMap[x / 32]? = some b ∧ b.val * 32 + x % 32 = k := Option.map_eq_some_iff

/-- Two ring indices of a map with no block twice share no entry (R23, R26). -/
theorem Opening.ringEntry_inj {o : Opening} (hn : o.blockMap.Nodup) {x y k : Nat} (hx : o.ringEntry x = some k)
    (hy : o.ringEntry y = some k) : x = y := by
  obtain ⟨b, hb, hk⟩ := Opening.ringEntry_eq_some.1 hx
  obtain ⟨c, hc, hk'⟩ := Opening.ringEntry_eq_some.1 hy
  have hbc : b = c := Fin.ext (by omega)
  obtain ⟨hlt, -⟩ := List.getElem?_eq_some_iff.1 hb
  have hplace : x / 32 = y / 32 := (List.getElem?_inj hlt hn).1 (by rw [hb, hc, hbc])
  omega

/-- Rings without a common block share no entry (R26). -/
theorem Opening.ringEntry_disjoint {o p : Opening} (hd : ∀ b ∈ o.blockMap, b ∉ p.blockMap) {x y k : Nat}
    (hx : o.ringEntry x = some k) : p.ringEntry y ≠ some k := by
  intro hy
  obtain ⟨b, hb, hk⟩ := Opening.ringEntry_eq_some.1 hx
  obtain ⟨c, hc, hk'⟩ := Opening.ringEntry_eq_some.1 hy
  have hbc : b = c := Fin.ext (by omega)
  exact hd b (List.mem_of_getElem? hb) (hbc ▸ List.mem_of_getElem? hc)

/-- A ring of its shape has an entry at every index (R23). -/
theorem Opening.shapeOk.ringEntry {o : Opening} (h : o.shapeOk) {x : Nat} (hx : x < o.ringSize) :
    ∃ k, o.ringEntry x = some k := by
  have hlt : x / 32 < o.blockMap.length := by
    have := h.2
    omega
  exact ⟨_, Opening.ringEntry_eq_some.2 ⟨_, List.getElem?_eq_getElem hlt, rfl⟩⟩

theorem Opening.shapeOk.ringSize_pos {o : Opening} (h : o.shapeOk) : 0 < o.ringSize := by
  have := h.1
  omega

/-- Every sequence number belongs at an entry of a ring of its shape. -/
theorem Opening.shapeOk.entryNumber {o : Opening} (h : o.shapeOk) (t : Half) : ∃ k, o.entryNumber t = some k :=
  h.ringEntry (Nat.mod_lt _ h.ringSize_pos)

theorem State.heldAt_eq {s : State} {o : Opening} {x k : Nat} (h : o.ringEntry x = some k) :
    s.heldAt o x = (s.ring.read k).held := by
  unfold State.heldAt
  rw [h]

theorem State.heldAt_iff {s : State} {o : Opening} {x : Nat} :
    s.heldAt o x = true ↔ ∃ k, o.ringEntry x = some k ∧ (s.ring.read k).held = true := by
  unfold State.heldAt
  cases o.ringEntry x <;> simp

/-- What is held in a ring is read from its own entries alone. -/
theorem State.heldAt_congr {s t : State} {o p : Opening} (hmap : p.blockMap = o.blockMap) {x : Nat}
    (hread : ∀ k, o.ringEntry x = some k → (t.ring.read k).held = (s.ring.read k).held) : t.heldAt p x = s.heldAt o x := by
  have hentry : p.ringEntry x = o.ringEntry x := by
    unfold Opening.ringEntry
    rw [hmap]
  unfold State.heldAt
  rw [hentry]
  cases hx : o.ringEntry x with
  | none => rfl
  | some k => exact hread k hx

/-! ## Sequence numbers in the window -/

/-- A distance that is not negative is how far the one number lies ahead of the other. -/
theorem toNat_of_seqDist {t p : Half} (h : 0 ≤ seqDist t p) :
    t.toNat = (p.toNat + (seqDist t p).toNat) % 65536 ∧ (seqDist t p).toNat < 32768 := by
  have ht := t.isLt
  have hp := p.isLt
  unfold seqDist at h ⊢
  rw [BitVec.toInt_eq_toNat_cond, BitVec.toNat_sub] at h ⊢
  split at h
  · next hc =>
    rw [if_pos hc]
    omega
  · omega

theorem seqDist_eq_zero_iff {t p : Half} : seqDist t p = 0 ↔ t = p := by
  constructor
  · intro h
    obtain ⟨ht, -⟩ := toNat_of_seqDist (t := t) (p := p) (by omega)
    apply BitVec.eq_of_toNat_eq
    have := p.isLt
    omega
  · rintro rfl
    unfold seqDist
    rw [BitVec.sub_self]
    rfl

/-- One step of the play position brings a number ahead of it one closer. -/
theorem seqDist_succ {t p : Half} (h : 0 < seqDist t p) : seqDist t (p + 1) = seqDist t p - 1 := by
  have ht := t.isLt
  have hp := p.isLt
  have hone : (1 : Half).toNat = 1 := rfl
  unfold seqDist at h ⊢
  rw [BitVec.toInt_eq_toNat_cond, BitVec.toNat_sub] at h ⊢
  rw [BitVec.toInt_eq_toNat_cond, BitVec.toNat_sub, BitVec.toNat_add, hone]
  split at h
  · next hc =>
    rw [if_pos hc, if_pos (by omega)]
    omega
  · omega

/-- Two numbers in one window that belong at one ring index are the same (R23, R43). -/
theorem seq_eq_of_window {o : Opening} (hs : o.shapeOk) {p t u : Half} (ht : 0 ≤ seqDist t p) (ht' : seqDist t p < o.ringSize)
    (hu : 0 ≤ seqDist u p) (hu' : seqDist u p < o.ringSize) (h : t.toNat % o.ringSize = u.toNat % o.ringSize) : t = u := by
  obtain ⟨htp, -⟩ := toNat_of_seqDist ht
  obtain ⟨hup, -⟩ := toNat_of_seqDist hu
  generalize seqDist t p = d at *
  generalize seqDist u p = e at *
  apply BitVec.eq_of_toNat_eq
  rcases hs.1 with hr | hr | hr | hr | hr <;> rw [hr] at h ht' hu' <;> omega

/-! ## The two laws -/

/-- What the laws of R25 read of a record: ring, play position and fresh count. -/
structure Opening.sameContents (o p : Opening) : Prop where
  ringSize : p.ringSize = o.ringSize
  blockMap : p.blockMap = o.blockMap
  playPos : p.playPos = o.playPos
  freshCount : p.freshCount = o.freshCount

theorem Opening.ringEntry_congr {o p : Opening} (h : p.blockMap = o.blockMap) (x : Nat) : p.ringEntry x = o.ringEntry x := by
  unfold Opening.ringEntry
  rw [h]

/-- The laws of a ring read its own entries alone. -/
theorem State.ringLaws_congr {s t : State} {o p : Opening} (h : o.sameContents p)
    (hread : ∀ x k, o.ringEntry x = some k → t.ring.read k = s.ring.read k) (hs : s.ringLaws o) : t.ringLaws p := by
  obtain ⟨htags, hcount⟩ := hs
  have hheld : ∀ x, t.heldAt p x = s.heldAt o x := fun x =>
    State.heldAt_congr h.blockMap fun k hk => congrArg Entry.held (hread x k hk)
  refine ⟨fun x hx hxheld => ?_, ?_⟩
  · rw [h.ringSize] at hx
    obtain ⟨q, k, hq, hk, hwindow⟩ := htags x hx (hheld x ▸ hxheld)
    refine ⟨q, k, h.playPos.trans hq, (Opening.ringEntry_congr h.blockMap x).trans hk, ?_⟩
    rw [hread x k hk, h.ringSize]
    exact hwindow
  · rw [h.freshCount, h.ringSize, hcount, funext hheld]

/-- A ring with nothing held obeys the laws under any play position, with fresh count 0. -/
theorem State.ringLaws_of_empty {s : State} {o : Opening} (hempty : ∀ x < o.ringSize, s.heldAt o x = false)
    (hcount : o.freshCount = 0) : s.ringLaws o := by
  refine ⟨fun x hx hheld => absurd hheld (by simp [hempty x hx]), ?_⟩
  rw [hcount, List.filter_eq_nil_iff.2 fun x hx => by simp [hempty x (List.mem_range.1 hx)]]
  rfl

/-- The first law, for one held entry: its tag lies in the window and belongs at its index (R25 (1)). -/
theorem State.ringLaws.tag {s : State} {o : Opening} (h : s.ringLaws o) {p : Half} {x k : Nat} (hp : o.playPos = some p)
    (hx : x < o.ringSize) (hk : o.ringEntry x = some k) (hheld : (s.ring.read k).held = true) :
    0 ≤ seqDist (s.ring.read k).tag p ∧ seqDist (s.ring.read k).tag p < o.ringSize ∧
      (s.ring.read k).tag.toNat % o.ringSize = x := by
  obtain ⟨q, l, hq, hl, hwindow⟩ := h.1 x hx ((State.heldAt_eq hk).trans hheld)
  rw [hp] at hq
  rw [hk] at hl
  cases hq
  cases hl
  exact hwindow

/-- An adopting stream holds nothing (R25 (1)). -/
theorem State.ringLaws.adopting {s : State} {o : Opening} (h : s.ringLaws o) (hp : o.playPos = none) {x : Nat}
    (hx : x < o.ringSize) : s.heldAt o x = false := by
  rw [← Bool.not_eq_true]
  intro hheld
  obtain ⟨q, -, hq, -⟩ := h.1 x hx hheld
  simp [hp] at hq

/-- A predicate that holds at one more index of a range holds of one element more. -/
theorem length_filter_range_succ {p q : Nat → Bool} {n x : Nat} (hx : x < n) (hp : p x = false) (hq : q x = true)
    (h : ∀ y, y ≠ x → q y = p y) : ((List.range n).filter q).length = ((List.range n).filter p).length + 1 := by
  induction n with
  | zero => omega
  | succ n ih =>
    simp only [List.range_succ, List.filter_append, List.length_append, List.filter_singleton]
    by_cases hxn : x = n
    · subst hxn
      have hbelow : (List.range x).filter q = (List.range x).filter p :=
        List.filter_congr fun y hy => h y (by have := List.mem_range.1 hy; omega)
      simp [hbelow, hp, hq]
    · rw [ih (by omega), h n fun e => hxn e.symm]
      omega

/-- A sample written into its free entry: one held entry more, with a tag in the window at its index (R24 (1), R45). -/
theorem State.ringLaws_write {s : State} {o : Opening} {pos t : Half} {k : Nat} (v : Word) (hs : o.shapeOk)
    (hn : o.blockMap.Nodup) (hpos : o.playPos = some pos) (ht : 0 ≤ seqDist t pos) (ht' : seqDist t pos < o.ringSize)
    (hk : o.entryNumber t = some k) (hfree : (s.ring.read k).held = false) (h : s.ringLaws o) :
    (s.withRing (s.ring.write k { value := v, tag := t, held := true })).ringLaws { o with freshCount := o.freshCount + 1 } := by
  have hkx : o.ringEntry (t.toNat % o.ringSize) = some k := hk
  have hother : ∀ x l, o.ringEntry x = some l → x ≠ t.toNat % o.ringSize → l ≠ k := by
    rintro x l hl hx rfl
    exact hx (Opening.ringEntry_inj hn hl hkx)
  refine ⟨fun x hx hheld => ?_, ?_⟩
  · obtain ⟨l, hl, hlheld⟩ := State.heldAt_iff.1 hheld
    have hl : o.ringEntry x = some l := hl
    refine ⟨pos, l, hpos, hl, ?_⟩
    by_cases hxt : x = t.toNat % o.ringSize
    · subst hxt
      rw [hkx] at hl
      cases hl
      simp only [State.withRing_ring, RingStore.read_write_self]
      exact ⟨ht, ht', trivial⟩
    · simp only [State.withRing_ring, RingStore.read_write_ne _ _ (hother x l hl hxt)] at hlheld ⊢
      exact h.tag hpos hx hl hlheld
  · rw [h.2]
    refine (length_filter_range_succ (Nat.mod_lt t.toNat hs.ringSize_pos) ((State.heldAt_eq hkx).trans hfree) ?_
      fun y hy => ?_).symm
    · refine (State.heldAt_eq (by exact hkx)).trans ?_
      simp
    · refine State.heldAt_congr rfl fun l hl => ?_
      simp [RingStore.read_write_ne _ _ (hother y l hl hy)]

/-- A held entry voided: one held entry less (R24 (2)). -/
theorem State.ringLaws_void {s : State} {o : Opening} {x k : Nat} (hn : o.blockMap.Nodup) (hx : x < o.ringSize)
    (hk : o.ringEntry x = some k) (hheld : (s.ring.read k).held = true) (h : s.ringLaws o) :
    (s.withRing (s.ring.void k)).ringLaws { o with freshCount := o.freshCount - 1 } := by
  have hvoid : (s.withRing (s.ring.void k)).heldAt o x = false := by
    rw [State.heldAt_eq hk, State.withRing_ring, RingStore.read_void, if_pos rfl]
  have hother : ∀ y l, o.ringEntry y = some l → y ≠ x → (s.ring.void k).read l = s.ring.read l := by
    intro y l hl hy
    rw [RingStore.read_void, if_neg]
    rintro rfl
    exact hy (Opening.ringEntry_inj hn hl hk)
  refine ⟨fun y hy hyheld => ?_, ?_⟩
  · by_cases hyx : y = x
    · rw [hyx] at hyheld
      exact absurd (hyheld.symm.trans hvoid) (by decide)
    · obtain ⟨l, hl, hlheld⟩ := State.heldAt_iff.1 hyheld
      have hl : o.ringEntry y = some l := hl
      have hread := hother y l hl hyx
      have hsame : s.heldAt o y = true := (State.heldAt_eq hl).trans (hread ▸ hlheld)
      obtain ⟨p, m, hp, hm, hwindow⟩ := h.1 y hy hsame
      rw [hl] at hm
      cases hm
      refine ⟨p, l, hp, hl, ?_⟩
      rw [State.withRing_ring, hread]
      exact hwindow
  · have hcount := length_filter_range_succ (p := (s.withRing (s.ring.void k)).heldAt o) (q := s.heldAt o) hx hvoid
      ((State.heldAt_eq hk).trans hheld) fun y hy =>
        (State.heldAt_congr rfl fun l hl => congrArg Entry.held (hother y l hl hy).symm)
    show o.freshCount - 1 = ((List.range o.ringSize).filter ((s.withRing (s.ring.void k)).heldAt o)).length
    rw [h.2, hcount, Nat.add_sub_cancel]

/-- The entry due, if held, is tagged with the play position: no other number of the window belongs there (R25, R91). -/
theorem State.ringLaws.tag_of_due {s : State} {o : Opening} (h : s.ringLaws o) (hs : o.shapeOk) {p : Half} {k : Nat}
    (hp : o.playPos = some p) (hk : o.entryNumber p = some k) (hheld : (s.ring.read k).held = true) :
    (s.ring.read k).tag = p := by
  obtain ⟨h0, h1, h2⟩ := h.tag hp (Nat.mod_lt _ hs.ringSize_pos) hk hheld
  have hpos : seqDist p p = 0 := seqDist_eq_zero_iff.2 rfl
  have hsize := hs.ringSize_pos
  exact seq_eq_of_window hs h0 h1 (by omega) (by omega) h2

/-- The play position moves on from an entry that is not held: every held tag stays in the window (R92 (6), R93 (6)). -/
theorem State.ringLaws_advanced {s : State} {o : Opening}
    (hdue : ∀ p, o.playPos = some p → s.heldAt o (p.toNat % o.ringSize) = false) (h : s.ringLaws o) :
    s.ringLaws o.advanced := by
  refine ⟨fun x hx hheld => ?_, h.2⟩
  obtain ⟨p, k, hp, hk, h0, h1, h2⟩ := h.1 x hx hheld
  have hne : seqDist (s.ring.read k).tag p ≠ 0 := by
    intro he
    have hx' : p.toNat % o.ringSize = x := by rw [← seqDist_eq_zero_iff.1 he]; exact h2
    have hfree := hdue p hp
    rw [hx'] at hfree
    exact absurd (hheld.symm.trans hfree) (by decide)
  have hsucc := seqDist_succ (t := (s.ring.read k).tag) (p := p) (by omega)
  have hsize : o.advanced.ringSize = o.ringSize := rfl
  exact ⟨p + 1, k, congrArg (Option.map (· + 1)) hp, hk, by omega, by omega, h2⟩

end Sys2Proof.Machine
end

section
/-! SUPPORT. The contents of a ring refilled by its own stream: the samples of a bundle (R38, R43 to R47) and the entry due at a
visit (R91 to R93). -/

namespace Sys2Proof.Machine

/-! ## One sample -/

theorem State.classOf_eq_placed {s : State} {o : Opening} {pos t : Half} :
    s.classOf o pos t = .placed ↔
      0 ≤ seqDist t pos ∧ seqDist t pos < o.ringSize ∧ s.heldAt o (t.toNat % o.ringSize) = false := by
  unfold State.classOf
  split
  · next h => exact ⟨nofun, fun hp => absurd hp.1 (by omega)⟩
  · split
    · next h => exact ⟨nofun, fun hp => absurd hp.2.1 (by omega)⟩
    · split
      · next hheld => exact ⟨nofun, fun hp => absurd (hheld.symm.trans hp.2.2) (by decide)⟩
      · next h0 h1 hfree => exact ⟨fun _ => ⟨by omega, by omega, by simpa using hfree⟩, fun _ => rfl⟩

/-- A sample placed is written into the entry at which it belongs (R24 (1), R45). -/
theorem placeSample_placed {s : State} {o : Opening} {pos t : Half} {k : Nat} (v : Word) (hk : o.entryNumber t = some k)
    (h : s.classOf o pos t = .placed) :
    placeSample o pos t v s.ring = (.placed, s.ring.write k { value := v, tag := t, held := true }) := by
  obtain ⟨h0, h1, hfree⟩ := State.classOf_eq_placed.1 h
  have hfree : (s.ring.read k).held = false := (State.heldAt_eq hk).symm.trans hfree
  unfold placeSample
  rw [if_neg (by omega), if_neg (by omega)]
  simp [hk, RingStore.place_eq, hfree]

/-- A late, an ahead and a duplicate sample leave the ring and are not counted placed (R45, R46). -/
theorem placeSample_other {s : State} {o : Opening} {pos t : Half} {k : Nat} (v : Word) (hk : o.entryNumber t = some k)
    (h : s.classOf o pos t ≠ .placed) :
    ∃ x, x ≠ .placed ∧ placeSample o pos t v s.ring = (x, s.ring) := by
  unfold placeSample
  split
  · exact ⟨.late, nofun, rfl⟩
  · next h0 =>
    split
    · exact ⟨.ahead, nofun, rfl⟩
    · next h1 =>
      have hheld : (s.ring.read k).held = true := by
        rw [← State.heldAt_eq hk, ← Bool.not_eq_false]
        exact fun hfree => h (State.classOf_eq_placed.2 ⟨by omega, by omega, hfree⟩)
      exact ⟨.duplicate, nofun, by simp [hk, RingStore.place_eq, hheld]⟩

theorem PlaceCounts.placed_count {c : PlaceCounts} {x : SampleClass} (h : x ≠ .placed) : (c.count x).placed = c.placed := by
  cases x with
  | late => rfl
  | ahead => rfl
  | duplicate => rfl
  | placed => exact absurd rfl h

/-! ## The samples of a bundle -/

theorem placeSamples_cons (o : Opening) (pos t : Half) (v : Word) (vs : List Word) (r : RingStore) (c : PlaceCounts) :
    placeSamples o pos t (v :: vs) r c =
      placeSamples o pos (t + 1) vs (placeSample o pos t v r).2 (c.count (placeSample o pos t v r).1) := rfl

/-- What writing a sample into the entry at which it belongs keeps, the samples of a bundle keep. -/
theorem placeSamples_induct {P : RingStore → Prop} {o : Opening}
    (hwrite : ∀ r k t v, o.entryNumber t = some k → P r → P (r.write k { value := v, tag := t, held := true }))
    (pos : Half) (vs : List Word) : ∀ (t : Half) (r : RingStore) (c : PlaceCounts), P r → P (placeSamples o pos t vs r c).2 := by
  induction vs with
  | nil => exact fun _ _ _ h => h
  | cons v vs ih =>
    intro t r c h
    rw [placeSamples_cons]
    refine ih (t + 1) _ _ ?_
    unfold placeSample
    split
    · exact h
    · split
      · exact h
      · split
        · exact h
        · next k hk =>
          rw [RingStore.place_eq]
          split
          · next hplace => split at hplace <;> cases hplace; exact hwrite r k t v hk h
          · next hplace => split at hplace <;> cases hplace; exact h

/-- The samples of a bundle keep the two laws, the fresh count rising with the samples placed (R25, R47). -/
theorem State.ringLaws_placeSamples {s : State} {o : Opening} {pos : Half} (hs : o.shapeOk) (hn : o.blockMap.Nodup)
    (vs : List Word) : ∀ (t : Half) (r : RingStore) (c : PlaceCounts),
    (s.withRing r).ringLaws { o with playPos := some pos, freshCount := o.freshCount + c.placed } →
    (s.withRing (placeSamples o pos t vs r c).2).ringLaws
      { o with playPos := some pos, freshCount := o.freshCount + (placeSamples o pos t vs r c).1.placed } := by
  induction vs with
  | nil => exact fun _ _ _ h => h
  | cons v vs ih =>
    intro t r c h
    obtain ⟨k, hk⟩ := hs.entryNumber t
    rw [placeSamples_cons]
    refine ih (t + 1) _ _ ?_
    by_cases hp : (s.withRing r).classOf o pos t = .placed
    · obtain ⟨h0, h1, hfree⟩ := State.classOf_eq_placed.1 hp
      have hsample : placeSample o pos t v r = _ := placeSample_placed v hk hp
      rw [hsample]
      exact State.ringLaws_write (o := { o with playPos := some pos, freshCount := o.freshCount + c.placed }) v hs hn rfl h0 h1 hk
        ((State.heldAt_eq hk).symm.trans hfree) h
    · obtain ⟨x, hx, hsample⟩ := placeSample_other v hk hp
      have hsample : placeSample o pos t v r = (x, r) := hsample
      rw [hsample, PlaceCounts.placed_count hx]
      exact h

/-- The entries after the samples of a bundle: each placed one stands at its index, every other entry is as it was. -/
theorem read_placeSamples {o : Opening} {pos : Half} (hs : o.shapeOk) (hn : o.blockMap.Nodup) (vs : List Word) :
    ∀ (s : State) (t : Half) (c : PlaceCounts), vs.length < 65536 →
    (∀ k x, k < vs.length → s.classOf o pos (t + BitVec.ofNat 16 k) = .placed →
      o.entryNumber (t + BitVec.ofNat 16 k) = some x →
      (placeSamples o pos t vs s.ring c).2.read x =
        { value := vs.getD k 0, tag := t + BitVec.ofNat 16 k, held := true }) ∧
    ∀ x, (∀ k < vs.length, s.classOf o pos (t + BitVec.ofNat 16 k) = .placed →
        o.entryNumber (t + BitVec.ofNat 16 k) ≠ some x) →
      (placeSamples o pos t vs s.ring c).2.read x = s.ring.read x := by
  induction vs with
  | nil => exact fun _ _ _ _ => ⟨fun _ _ hk => absurd hk (Nat.not_lt_zero _), fun _ _ => rfl⟩
  | cons v vs ih =>
    intro s t c hlen
    have hlen : vs.length + 1 < 65536 := hlen
    have hnext : ∀ k, t + 1 + BitVec.ofNat 16 k = t + BitVec.ofNat 16 (k + 1) := fun k => by
      rw [BitVec.ofNat_add, BitVec.add_assoc, BitVec.add_comm (BitVec.ofNat 16 k)]; rfl
    have hfirst : t + BitVec.ofNat 16 0 = t := BitVec.add_zero t
    obtain ⟨e, he⟩ := hs.entryNumber t
    by_cases hp : s.classOf o pos t = .placed
    · obtain ⟨h0, h1, -⟩ := State.classOf_eq_placed.1 hp
      have hsample : placeSamples o pos t (v :: vs) s.ring c = placeSamples o pos (t + 1) vs
          (s.ring.write e { value := v, tag := t, held := true }) (c.count .placed) := by
        rw [placeSamples_cons, placeSample_placed v he hp]
      obtain ⟨hwritten, hothers⟩ := ih (s.withRing (s.ring.write e { value := v, tag := t, held := true })) (t + 1)
        (c.count .placed) (by omega)
      simp only [State.withRing_ring, hnext, ← hsample] at hwritten hothers
      have hlater : ∀ k < vs.length, ∀ x, s.classOf o pos (t + BitVec.ofNat 16 (k + 1)) = .placed →
          o.entryNumber (t + BitVec.ofNat 16 (k + 1)) = some x → x ≠ e := by
        rintro k hk x hpk hx rfl
        obtain ⟨g0, g1, -⟩ := State.classOf_eq_placed.1 hpk
        have hsame := seq_eq_of_window hs g0 g1 h0 h1 (Opening.ringEntry_inj hn hx he)
        have hnat : (t + BitVec.ofNat 16 (k + 1)).toNat = t.toNat := congrArg BitVec.toNat hsame
        rw [BitVec.toNat_add, BitVec.toNat_ofNat] at hnat
        have := t.isLt
        omega
      have hclass : ∀ k < vs.length, ∀ x, o.entryNumber (t + BitVec.ofNat 16 (k + 1)) = some x → x ≠ e →
          (s.withRing (s.ring.write e { value := v, tag := t, held := true })).classOf o pos (t + BitVec.ofNat 16 (k + 1)) =
            s.classOf o pos (t + BitVec.ofNat 16 (k + 1)) := by
        intro k _ x hx hxe
        unfold State.classOf
        rw [State.heldAt_congr (s := s) rfl fun l hl => ?_]
        obtain rfl : x = l := Option.some.inj (hx.symm.trans hl)
        rw [State.withRing_ring, RingStore.read_write_ne _ _ hxe]
      have hself : (s.withRing (s.ring.write e { value := v, tag := t, held := true })).heldAt o (t.toNat % o.ringSize) = true := by
        rw [State.heldAt_eq he, State.withRing_ring, RingStore.read_write_self]
      have hrest : ∀ x, (∀ k < vs.length, s.classOf o pos (t + BitVec.ofNat 16 (k + 1)) = .placed →
          o.entryNumber (t + BitVec.ofNat 16 (k + 1)) ≠ some x) →
          (placeSamples o pos t (v :: vs) s.ring c).2.read x =
            (s.ring.write e { value := v, tag := t, held := true }).read x := by
        intro x hx
        refine hothers x fun k hk hpk hxk => ?_
        by_cases hxe : x = e
        · obtain ⟨-, -, hfree⟩ := State.classOf_eq_placed.1 hpk
          rw [State.heldAt_eq hxk, State.withRing_ring, hxe, RingStore.read_write_self] at hfree
          cases hfree
        · exact hx k hk (hclass k hk x hxk hxe ▸ hpk) hxk
      refine ⟨fun k x hk hpk hx => ?_, fun x hx => ?_⟩
      · cases k with
        | zero =>
          rw [hfirst] at hx ⊢
          obtain rfl : e = x := Option.some.inj (he.symm.trans hx)
          rw [hrest e fun k hk hpk hxk => hlater k hk e hpk hxk rfl, RingStore.read_write_self]
          rfl
        | succ k =>
          have hk : k < vs.length := Nat.lt_of_succ_lt_succ hk
          have hxe := hlater k hk x hpk hx
          exact hwritten k x hk ((hclass k hk x hx hxe).trans hpk) hx
      · have hxe : x ≠ e := by
          rintro rfl
          exact hx 0 (Nat.zero_lt_succ _) (by rwa [hfirst]) (by rwa [hfirst])
        rw [hrest x fun k hk => hx (k + 1) (Nat.succ_lt_succ hk), RingStore.read_write_ne _ _ hxe]
    · obtain ⟨y, -, hsample⟩ := placeSample_other v he hp
      have hsame : placeSamples o pos t (v :: vs) s.ring c = placeSamples o pos (t + 1) vs s.ring (c.count y) := by
        rw [placeSamples_cons, hsample]
      obtain ⟨hwritten, hothers⟩ := ih s (t + 1) (c.count y) (by omega)
      simp only [hnext, ← hsame] at hwritten hothers
      refine ⟨fun k x hk hpk hx => ?_, fun x hx => hothers x fun k hk => hx (k + 1) (Nat.succ_lt_succ hk)⟩
      cases k with
      | zero => exact absurd (hfirst ▸ hpk) hp
      | succ k => exact hwritten k x (Nat.lt_of_succ_lt_succ hk) hpk hx

/-! ## A ring refilled -/

/-- `r` is the Ring Store and `p` the record after the stream with fields `o` has refilled its own ring: no other entry, no block
and no sweep has changed, and a ring of its shape that obeyed the laws of R25 obeys them. -/
structure State.refills (s : State) (o : Opening) (r : RingStore) (p : Opening) : Prop where
  freeBlocks : r.freeBlocks = s.ring.freeBlocks
  sweepQueue : r.sweepQueue = s.ring.sweepQueue
  engine : r.engine = s.ring.engine
  wf : s.ring.wf → r.wf
  outside : ∀ k, (∀ x, o.ringEntry x ≠ some k) → r.read k = s.ring.read k
  ringSize : p.ringSize = o.ringSize
  blockMap : p.blockMap = o.blockMap
  phase : p.phase = o.phase
  laws : o.shapeOk → o.blockMap.Nodup → s.ringLaws o → (s.withRing r).ringLaws p

/-- The laws of an adopting stream hold for any play position, since nothing is held (R25, R44). -/
theorem State.ringLaws_adopt {s : State} {o : Opening} (q : BundleRequest) (h : s.ringLaws o) :
    s.ringLaws { o with playPos := some (o.adopt q) } := by
  cases hp : o.playPos with
  | some p =>
    have hadopt : some (o.adopt q) = o.playPos := by simp [Opening.adopt, hp]
    exact State.ringLaws_congr (o := o) ⟨rfl, rfl, hadopt, rfl⟩ (fun _ _ _ => rfl) h
  | none =>
    have hempty : ∀ x < o.ringSize, s.heldAt o x = false := fun x hx => h.adopting hp hx
    refine State.ringLaws_of_empty hempty (h.2.trans ?_)
    rw [List.filter_eq_nil_iff.2 fun x hx => by simp [hempty x (List.mem_range.1 hx)]]
    rfl

/-- A classified bundle refills the ring of its stream (R40 (1), (2), R47). -/
theorem State.refills_classified (s : State) (q : BundleRequest) (o : Opening) :
    s.refills o (s.classified q o).2
      { o with playPos := some (o.adopt q), freshCount := o.freshCount + (s.classified q o).1.placed } where
  freeBlocks := placeSamples_induct (P := fun r => r.freeBlocks = s.ring.freeBlocks) (fun _ _ _ _ _ h => h) _ _ _ _ _ rfl
  sweepQueue := placeSamples_induct (P := fun r => r.sweepQueue = s.ring.sweepQueue) (fun _ _ _ _ _ h => h) _ _ _ _ _ rfl
  engine := placeSamples_induct (P := fun r => r.engine = s.ring.engine) (fun _ _ _ _ _ h => h) _ _ _ _ _ rfl
  wf h := placeSamples_induct (fun _ _ _ _ hk hr => RingStore.wf_write _ hr (Opening.entryNumber_lt hk)) _ _ _ _ _ h
  outside k hk := placeSamples_induct (P := fun r => r.read k = s.ring.read k) (fun r l t v hl h => by
    have hne : k ≠ l := fun e => hk _ (e ▸ hl)
    rw [RingStore.read_write_ne _ _ hne, h]) _ _ _ _ _ rfl
  ringSize := rfl
  blockMap := rfl
  phase := rfl
  laws hs hn h := State.ringLaws_placeSamples hs hn _ _ _ _ (State.ringLaws_adopt q h)

/-! ## The entry due -/

/-- What the consumption of the entry due does: nothing without an entry; else the entry is voided, and its value is handed over
if it is fresh (R91). -/
theorem consumeDue_cases (o : Opening) (r : RingStore) :
    (consumeDue o r = (none, r) ∧ ∀ p, o.playPos = some p → o.entryNumber p = none) ∨
    ∃ p k, o.playPos = some p ∧ o.entryNumber p = some k ∧
      consumeDue o r = (if (r.read k).held = true ∧ (r.read k).tag = p then some (r.read k).value else none, r.void k) := by
  unfold consumeDue
  cases hp : o.playPos with
  | none => exact .inl ⟨rfl, nofun⟩
  | some p =>
    cases hk : o.entryNumber p with
    | none =>
      refine .inl ⟨by simp [hk], fun q hq => ?_⟩
      cases hq
      exact hk
    | some k =>
      refine .inr ⟨p, k, rfl, hk, ?_⟩
      simp only [hk, RingStore.consume_eq]
      rfl

/-- Voiding one entry of its ring, a stream refills it if the laws are kept. -/
theorem State.refills_void {s : State} {o p : Opening} {x k : Nat} (hk : o.ringEntry x = some k)
    (hsize : p.ringSize = o.ringSize) (hmap : p.blockMap = o.blockMap) (hphase : p.phase = o.phase)
    (hlaws : o.shapeOk → o.blockMap.Nodup → s.ringLaws o → (s.withRing (s.ring.void k)).ringLaws p) :
    s.refills o (s.ring.void k) p where
  freeBlocks := rfl
  sweepQueue := rfl
  engine := rfl
  wf h := RingStore.wf_void h (Opening.ringEntry_lt hk)
  outside l hl := by
    rw [RingStore.read_void, if_neg]
    rintro rfl
    exact hl x hk
  ringSize := hsize
  blockMap := hmap
  phase := hphase
  laws := hlaws

/-- A fresh visit refills the ring: the entry due is held no longer, the fresh count falls, the play position moves on (R92). -/
theorem State.refills_fresh {s : State} {o : Opening} {v : Word} {r : RingStore} (h : consumeDue o s.ring = (some v, r)) :
    s.refills o r (o.afterFresh v) := by
  rcases consumeDue_cases o s.ring with ⟨hnone, -⟩ | ⟨p, k, hp, hk, hsome⟩
  · rw [hnone] at h
    cases h
  · rw [hsome] at h
    obtain ⟨hfresh, rfl⟩ := Prod.mk.inj h
    split at hfresh
    · next hdue =>
      refine State.refills_void hk rfl rfl rfl fun hs hn hlaws => ?_
      have hx : p.toNat % o.ringSize < o.ringSize := Nat.mod_lt _ hs.ringSize_pos
      have hvoided := State.ringLaws_void hn hx hk hdue.1 hlaws
      have hadvanced := State.ringLaws_advanced (fun p' hp' => ?_) hvoided
      · exact State.ringLaws_congr ⟨rfl, rfl, rfl, rfl⟩ (fun _ _ _ => rfl) hadvanced
      · obtain rfl : p = p' := Option.some.inj (hp.symm.trans hp')
        refine (State.heldAt_eq (by exact hk)).trans ?_
        rw [State.withRing_ring, RingStore.read_void, if_pos rfl]
    · cases hfresh

/-- The entry due at a visit that is not fresh is not held, by the laws (R25, R91). -/
theorem State.ringLaws.due_free {s : State} {o : Opening} (h : s.ringLaws o) (hs : o.shapeOk) {r : RingStore}
    (hstale : consumeDue o s.ring = (none, r)) {p : Half} (hp : o.playPos = some p) :
    s.heldAt o (p.toNat % o.ringSize) = false := by
  rcases consumeDue_cases o s.ring with ⟨-, hnone⟩ | ⟨p', k, hp', hk, hsome⟩
  · have hentry : o.ringEntry (p.toNat % o.ringSize) = none := hnone p hp
    unfold State.heldAt
    rw [hentry]
  · obtain rfl : p = p' := Option.some.inj (hp.symm.trans hp')
    rw [State.heldAt_eq hk, ← Bool.not_eq_true]
    intro hheld
    rw [hstale, if_pos ⟨hheld, h.tag_of_due hs hp hk hheld⟩] at hsome
    cases hsome

/-- A visit that is not fresh leaves every entry as it was, by the laws (R25, R91). -/
theorem State.ringLaws.read_stale {s : State} {o : Opening} (h : s.ringLaws o) (hs : o.shapeOk) {r : RingStore}
    (hstale : consumeDue o s.ring = (none, r)) (l : Nat) : r.read l = s.ring.read l := by
  rcases consumeDue_cases o s.ring with ⟨hsame, -⟩ | ⟨p, k, hp, hk, hsome⟩
  · rw [hsame] at hstale
    cases hstale
    rfl
  · have hfree : (s.ring.read k).held = false := (State.heldAt_eq hk).symm.trans (h.due_free hs hstale hp)
    rw [hstale] at hsome
    obtain ⟨-, rfl⟩ := Prod.mk.inj hsome
    rw [RingStore.read_void]
    split
    · next hl => rw [hl, ← hfree]
    · rfl

/-- A visit that is not fresh refills the ring with what it held, if the laws hold of the record it leaves. -/
theorem State.refills_stale {s : State} {o p : Opening} {r : RingStore} (h : consumeDue o s.ring = (none, r))
    (hsize : p.ringSize = o.ringSize) (hmap : p.blockMap = o.blockMap) (hphase : p.phase = o.phase)
    (hlaws : o.shapeOk → s.ringLaws o → s.ringLaws p) : s.refills o r p := by
  have hlaws' : o.shapeOk → o.blockMap.Nodup → s.ringLaws o → (s.withRing r).ringLaws p := fun hs _ hl =>
    State.ringLaws_congr ⟨rfl, rfl, rfl, rfl⟩ (fun _ l _ => hl.read_stale hs h l) (hlaws hs hl)
  rcases consumeDue_cases o s.ring with ⟨hnone, -⟩ | ⟨q, k, -, hk, hsome⟩
  · rw [hnone] at h
    obtain ⟨-, rfl⟩ := Prod.mk.inj h
    exact
      { freeBlocks := rfl, sweepQueue := rfl, engine := rfl, wf := id, outside := fun _ _ => rfl, ringSize := hsize,
        blockMap := hmap, phase := hphase, laws := hlaws' }
  · rw [hsome] at h
    obtain ⟨-, rfl⟩ := Prod.mk.inj h
    exact State.refills_void hk hsize hmap hphase hlaws'

/-- A stale visit in PLAYING: the play position moves on from an entry that is not held (R93). -/
theorem State.refills_afterStale {s : State} {o : Opening} {r : RingStore} (h : consumeDue o s.ring = (none, r)) :
    s.refills o r o.afterStale :=
  State.refills_stale h rfl rfl rfl fun hs hlaws => State.ringLaws_congr ⟨rfl, rfl, rfl, rfl⟩ (fun _ _ _ => rfl)
    (State.ringLaws_advanced (fun _ hp => hlaws.due_free hs h hp) hlaws)

/-- A stale visit in DRAINING leaves the record to the close (R102). -/
theorem State.refills_draining {s : State} {o : Opening} {r : RingStore} (h : consumeDue o s.ring = (none, r)) :
    s.refills o r o :=
  State.refills_stale h rfl rfl rfl fun _ hlaws => hlaws

end Sys2Proof.Machine
end

section
/-! SUPPORT. The changes: what a command can do to rings, sweeps, pending entries and openings, one constructor for each kind of
change; and the changes that the shared operations make. -/

namespace Sys2Proof.Machine

/-! ## States at rest -/

/-- The phase in which a pending entry waits for its stream: SWEEPING and DRAINING, and no other (R148). -/
def Phase.deferred : Phase → Option Phase
  | .sweeping => some .sweeping
  | .priming => none
  | .playing => none
  | .starved => none
  | .draining => some .draining

/-- The deferring phase that a stream is in, if any. -/
def State.waitsIn (s : State) (i : StreamId) : Option Phase := (s.opening i).bind fun o => o.phase.deferred

/-- A record rewritten with the contents of its ring left alone, and a deferring phase neither entered nor left. -/
structure Opening.calm (o p : Opening) : Prop extends o.sameContents p where
  deferred : p.phase.deferred = o.phase.deferred

theorem Opening.calm.refl (o : Opening) : o.calm o := ⟨⟨rfl, rfl, rfl, rfl⟩, rfl⟩

theorem calm_of_eq {x y : Option Opening} (h : y = x) : Option.Rel Opening.calm x y := by
  rw [h]
  cases x with
  | none => exact .none
  | some o => exact .some (.refl o)

/-- Ring Store, pending table, swap mark and HALTING stay, records change calmly, the queues keep their capacities, and at most
`n` replies more are queued. -/
structure State.rests (n : Nat) (s t : State) : Prop where
  ring : t.ring = s.ring
  table : t.req.pendingTable = s.req.pendingTable
  mark : t.plans.swapPending = s.plans.swapPending
  halting : t.bus.state = .halting ↔ s.bus.state = .halting
  handling : t.req.handling = s.req.handling
  replies : t.req.replyQueue.length ≤ s.req.replyQueue.length + n
  fits : s.queuesFit → t.queuesFit
  calm : ∀ i, Option.Rel Opening.calm (s.opening i) (t.opening i)

/-- A change that leaves the records, the ring, the pending table, the plans' mark and the bus state is at rest. -/
theorem State.rests_frame {n : Nat} {s t : State} (ho : ∀ i, t.opening i = s.opening i) (hr : t.ring = s.ring)
    (hp : t.req.pendingTable = s.req.pendingTable) (hm : t.plans.swapPending = s.plans.swapPending)
    (hb : t.bus.state = s.bus.state) (hh : t.req.handling = s.req.handling)
    (hq : t.req.replyQueue.length ≤ s.req.replyQueue.length + n) (hf : s.queuesFit → t.queuesFit) : s.rests n t where
  ring := hr
  table := hp
  mark := hm
  halting := by rw [hb]
  handling := hh
  replies := hq
  fits := hf
  calm i := calm_of_eq (ho i)

/-- Every block blank, as both resets leave it: no stream open, all blocks free, no sweep, no entry, no swap, the bus STOPPED. -/
structure State.blank (s t : State) : Prop where
  closed : ∀ i, t.opening i = none
  freeBlocks : t.ring.freeBlocks = List.finRange 256
  sweepQueue : t.ring.sweepQueue = []
  engine : t.ring.engine = .idle
  entries : t.ring.entries = [] ∨ t.ring.entries = s.ring.entries
  table : t.req.pendingTable = []
  mark : t.plans.swapPending = false
  stopped : t.bus.state = .stopped
  handling : t.req.handling = s.req.handling ∨ t.req.handling = none
  replies : t.req.replyQueue.length ≤ s.req.replyQueue.length + s.req.pendingTable.length
  fits : s.queuesFit → t.queuesFit

/-! ## The changes -/

/-- What can happen to rings, sweeps, pending entries and openings, with the number of replies and entries that join. -/
inductive State.changes : Nat → State → State → Prop where
  | rests {n : Nat} {s t : State} (rest : s.rests n t) : State.changes n s t
  | trans {m n : Nat} {s t u : State} (first : State.changes m s t) (second : State.changes n t u) :
      State.changes (m + n) s u
  | closes {s : State} {i : StreamId} {o : Opening} (opened : s.opening i = some o) (drainEnded : Bool) :
      State.changes 0 s (s.closeStream i drainEnded)
  | opens {s : State} {q : OpenRequest} {i : StreamId} (f : Frame) (accepted : s.openRefusal q i = none) :
      State.changes 1 s (s.acceptOpen f q i)
  | drains {s : State} {i : StreamId} {o : Opening} (f : Frame) (opened : s.opening i = some o) (plays : o.phase = .playing)
      (room : s.req.tableFull = false) :
      State.changes 1 s ((s.withOpening i (some { o with phase := .draining })).defer f (.closeOf i))
  | restarts {s : State} {i : StreamId} {o : Opening} (f : Frame) (start : Half) (opened : s.opening i = some o)
      (settled : o.phase.deferred = none) (room : s.req.tableFull = false) :
      State.changes 1 s (((s.withOpening i (some (o.restarted start))).withRing (s.ring.joinSweep i)).defer f (.resumeOf i))
  | voids {s : State} {i : StreamId} {v : Nat} {o : Opening} {b : BlockId} (busy : s.ring.engine = .busy i v)
      (opened : s.opening i = some o) (next : o.blockMap[v]? = some b) :
      State.changes 0 s (s.withRing (s.ring.voidedOne i v b))
  | finishes {s : State} {i : StreamId} {o : Opening} (busy : s.ring.engine = .busy i o.blockMap.length)
      (opened : s.opening i = some o) : State.changes 0 s (s.sweepDone i o)
  | refills {s : State} {i : StreamId} {o p : Opening} {r : RingStore} (opened : s.opening i = some o)
      (swept : o.phase ≠ .sweeping) (refill : s.refills o r p) : State.changes 0 s ((s.withRing r).withOpening i (some p))
  | marksSwap {s : State} (f : Frame) (idle : s.plans.swapPending = false) (room : s.req.tableFull = false) :
      State.changes 1 s (s.swapLater f)
  | settlesSwap {s : State} (reply : PendingEntry → Reply) (pending : s.plans.swapPending = true) :
      State.changes 0 s ((s.withPlans { s.plans with swapPending := false }).withReq
        (s.req.answer (fun e => decide (e.job = .swap)) reply))
  | halts {s : State} (f : Frame) (runs : s.bus.state = .running) (room : s.req.tableFull = false) :
      State.changes 1 s (s.haltLater f)
  | stops {s : State} (reply : PendingEntry → Reply) (halting : s.bus.state = .halting) :
      State.changes 0 s ((s.withBus s.bus.halted).withReq (s.req.answer (fun e => decide (e.job = .halt)) reply))
  | blanks {s t : State} (blank : s.blank t) : State.changes 0 s t

theorem State.changes.refl (s : State) : s.changes 0 s :=
  .rests (State.rests_frame (fun _ => rfl) rfl rfl rfl rfl rfl le_rfl id)

theorem State.changes_ite {n : Nat} {s t u : State} {c : Prop} [Decidable c] (ht : s.changes n t) (hu : s.changes n u) :
    s.changes n (if c then t else u) := by
  split
  · exact ht
  · exact hu

theorem State.changes_onlyIf {s t : State} (b : Bool) (h : s.changes 0 t) : s.changes 0 (s.onlyIf b t) :=
  State.changes_ite h (.refl s)

/-! ## The named updates -/

namespace State.changes

variable {n : Nat} {s t : State}

/-- A change of blocks other than records, ring, pending table, plans and bus. -/
theorem frame {u : State} (h : s.changes n t) (ho : ∀ i, u.opening i = t.opening i) (hr : u.ring = t.ring)
    (hp : u.req.pendingTable = t.req.pendingTable) (hm : u.plans.swapPending = t.plans.swapPending)
    (hb : u.bus.state = t.bus.state) (hh : u.req.handling = t.req.handling) (hq : u.req.replyQueue = t.req.replyQueue)
    (hf : t.queuesFit → u.queuesFit) : s.changes n u :=
  h.trans (.rests (n := 0) (State.rests_frame ho hr hp hm hb hh (by rw [hq]; rfl) hf))

theorem withNotices (h : s.changes n t) (i : StreamId) (c : StreamNotices) : s.changes n (t.withNotices i c) :=
  h.frame (fun _ => rfl) rfl rfl rfl rfl rfl rfl id

theorem withGlobals (h : s.changes n t) (g : GlobalCounters) : s.changes n (t.withGlobals g) :=
  h.frame (fun _ => rfl) rfl rfl rfl rfl rfl rfl id

theorem withCounters (h : s.changes n t) (i : StreamId) (c : StreamCounters) : s.changes n (t.withCounters i c) :=
  h.frame (fun j => t.opening_withCounters i j c) rfl rfl rfl rfl rfl rfl id

theorem linkFault (h : s.changes n t) : s.changes n t.linkFault := h.frame (fun _ => rfl) rfl rfl rfl rfl rfl rfl id

/-- The Feed Link Port changed, its receive buffer and frames since report in their bounds. -/
theorem withLink (h : s.changes n t) {l : FeedLink} (hrx : t.link.rxBuf.length ≤ 8 → l.rxBuf.length ≤ 8)
    (hsince : t.link.sinceReport ≤ 4 → l.sinceReport ≤ 4) : s.changes n (t.withLink l) :=
  h.frame (fun _ => rfl) rfl rfl rfl rfl rfl rfl fun hf => ⟨hrx hf.1, hf.2.1, hsince hf.2.2⟩

/-- The Return Collector changed, its report queue in its bound. -/
theorem withColl (h : s.changes n t) {c : Collector} (hqueue : t.coll.queue.length ≤ 12 → c.queue.length ≤ 12) :
    s.changes n (t.withColl c) :=
  h.frame (fun _ => rfl) rfl rfl rfl rfl rfl rfl fun hf => ⟨hf.1, hqueue hf.2.1, hf.2.2⟩

/-- The bus changed without entering or leaving HALTING. -/
theorem withBus (h : s.changes n t) {b : CycleEngine} (hb : b.state = .halting ↔ t.bus.state = .halting) :
    s.changes n (t.withBus b) :=
  h.trans (.rests (n := 0) (t := t.withBus b)
    { ring := rfl, table := rfl, mark := rfl, halting := hb, handling := rfl, replies := le_rfl, fits := id
      calm := fun _ => calm_of_eq rfl })

/-- Plans changed under the same mark. -/
theorem withPlans (h : s.changes n t) {p : PlanStore} (hm : p.swapPending = t.plans.swapPending) :
    s.changes n (t.withPlans p) :=
  h.frame (fun _ => rfl) rfl rfl hm rfl rfl rfl id

/-- An open record rewritten calmly. -/
theorem withOpening (h : s.changes n t) {i : StreamId} {o p : Opening} (ho : t.opening i = some o) (hc : o.calm p) :
    s.changes n (t.withOpening i (some p)) :=
  h.trans (.rests (n := 0) (t := t.withOpening i (some p))
    { ring := rfl, table := rfl, mark := rfl, halting := Iff.rfl, handling := rfl, replies := le_rfl, fits := id
      calm := fun j => by
        rw [State.opening_withOpening]
        split
        · next hj => rw [hj, ho]; exact .some hc
        · exact calm_of_eq rfl })

theorem replyTo (h : s.changes n t) (f : Frame) (status : Status) (result : ReplyResult) :
    s.changes (n + 1) (t.replyTo f status result) :=
  h.trans (.rests (State.rests_frame (fun _ => rfl) rfl rfl rfl rfl rfl (by simp [State.replyTo]) id))

theorem refuse (h : s.changes n t) (f : Frame) (status : Status) : s.changes (n + 1) (t.refuse f status) := h.replyTo ..

/-! ## Notices, phases and closes -/

theorem raiseNotice (h : s.changes n t) (i : StreamId) (k : NoticeKind) (m : Nat) : s.changes n (t.raiseNotice i k m) := by
  unfold State.raiseNotice
  split
  · exact h
  · exact State.changes_ite (h.withNotices ..) h

/-- A phase that defers nothing changed into another. -/
theorem settle (h : s.changes n t) {i : StreamId} {o : Opening} (ho : t.opening i = some o) (hs : o.phase.deferred = none)
    {x : Phase} (hx : x.deferred = none) : s.changes n (t.withOpening i (some { o with phase := x })) :=
  h.withOpening ho ⟨⟨rfl, rfl, rfl, rfl⟩, hx.trans hs.symm⟩

theorem starve (h : s.changes n t) {i : StreamId} {o : Opening} (ho : t.opening i = some o) (hs : o.phase.deferred = none) :
    s.changes n (t.starve i o) :=
  ((h.settle ho hs (x := .starved) rfl).withCounters ..).raiseNotice ..

theorem startPlaying (h : s.changes n t) {i : StreamId} {o : Opening} (ho : t.opening i = some o)
    (hs : o.phase.deferred = none) : s.changes n (t.startPlaying i o) :=
  (h.settle ho hs (x := .playing) rfl).raiseNotice ..

theorem closeStream (h : s.changes n t) (i : StreamId) (drainEnded : Bool) : s.changes n (t.closeStream i drainEnded) := by
  cases ho : t.opening i with
  | none => rwa [State.closeStream_closed ho]
  | some o => exact h.trans (.closes ho drainEnded)

theorem endDrains (h : s.changes n t) (p : Opening → Bool) : s.changes n (t.endDrains p) :=
  State.endDrains_induct (P := fun u => s.changes n u) (fun _ _ _ hu _ _ _ => hu.closeStream _ _) h

end State.changes

/-! ## Collection -/

theorem Collector.form_queue {c : Collector} (i : StreamId) (g : Byte) (final : Bool) (h : c.queue.length < 12) :
    (c.form i g final).queue.length ≤ 12 := by
  rw [Collector.form_eq, List.length_append]
  exact h

theorem Collector.fillUp_queue {c : Collector} (i : StreamId) (g : Byte) (h : c.queue.length ≤ 12) :
    (c.fillUp i g).queue.length ≤ 12 := by
  unfold Collector.fillUp
  split
  · next hroom => exact Collector.form_queue i g false hroom
  · exact h

theorem State.changes.handRecord {n : Nat} {s t : State} (h : s.changes n t) (i : StreamId) (batch : Nat) (r : ReturnRecord) :
    s.changes n (t.handRecord i batch r) := by
  have hdrop : s.changes n (t.dropRecord i) := (h.withCounters ..).withColl id
  have hkeep : s.changes n (t.keepRecord i batch r) :=
    State.changes_ite (h.withColl (Collector.fillUp_queue (c := t.coll.append i r) i _)) (h.withColl id)
  exact State.changes_ite h (State.changes_ite hdrop hkeep)

theorem State.changes.turnOff {n : Nat} {s t : State} (h : s.changes n t) (i : StreamId) : s.changes n (t.turnOff i) := by
  unfold State.turnOff
  split
  · exact h
  · split
    · next hroom => exact h.withColl fun _ => Collector.form_queue i _ true hroom
    · exact (h.withCounters ..).withColl id

theorem State.changes.retuneBatch {n : Nat} {s t : State} (h : s.changes n t) (i : StreamId) (old new : Nat) :
    s.changes n (t.retuneBatch i old new) := by
  have hunstall : s.changes n (t.withColl (t.coll.unstall i)) := h.withColl id
  have hfill : s.changes n (t.withColl (t.coll.fillUp i (t.stream i).generation)) :=
    h.withColl (Collector.fillUp_queue i _)
  exact State.changes_ite h (State.changes_ite (hunstall.turnOff i)
    (State.changes_ite (State.changes_ite hunstall h) (State.changes_ite h (State.changes_ite hfill h))))

/-! ## Swaps and the stop of the bus -/

theorem State.changes.recount {n : Nat} {s t : State} (h : s.changes n t) (p : Plan) : s.changes n (t.recount p) :=
  h.trans (.rests (n := 0) (t := t.recount p)
    { ring := t.recount_ring p
      table := by rw [State.recount_req]
      mark := by rw [State.recount_plans]
      halting := by rw [State.recount_bus]
      handling := by rw [State.recount_req]
      replies := by rw [State.recount_req]; exact le_rfl
      fits := fun hf => by simpa only [State.queuesFit, State.recount_link, State.recount_coll] using hf
      calm := fun i => by
        rw [State.opening_recount]
        cases t.opening i with
        | none => exact .none
        | some o => exact .some ⟨⟨rfl, rfl, rfl, rfl⟩, rfl⟩ })

theorem State.changes.applySwap {n : Nat} {s t : State} (h : s.changes n t) : s.changes n t.applySwap :=
  ((h.withPlans (p := { t.plans with active := t.plans.staged, staged := [] }) rfl).recount _).endDrains _

theorem State.changes.settleSwap {n : Nat} {s t : State} (h : s.changes n t) (cycle : Option Half) :
    s.changes n (t.settleSwap cycle) := by
  cases hp : t.plans.swapPending with
  | false => rwa [State.settleSwap_none hp]
  | true =>
    have hmark : t.applySwap.plans.swapPending = true := by rw [t.applySwap_spec.1]; exact hp
    rw [State.settleSwap_eq hp]
    exact h.applySwap.trans (.settlesSwap _ hmark)

theorem State.changes.stopBus {n : Nat} {s t : State} (h : s.changes n t) (hb : t.bus.state ≠ .halting) :
    s.changes n t.stopBus :=
  ((h.withBus (b := t.bus.halted) (iff_of_false (by exact nofun) hb)).settleSwap none).endDrains _

/-- The close of a stream with an empty buffer clears its tally (R122 (2)). -/
theorem State.closeBuffer_empty {s : State} {i : StreamId} (h : s.coll.buffers.at i = []) :
    s.closeBuffer i = s.withColl (s.coll.setTally i 0) := if_pos h

/-- With room for a report the buffer goes out with the final flag (R122 (3)). -/
theorem State.closeBuffer_room {s : State} {i : StreamId} (h : s.coll.buffers.at i ≠ []) (hq : s.coll.queue.length < 12) :
    s.closeBuffer i = s.withColl (s.coll.form i (s.stream i).generation true) := (if_neg h).trans (if_pos hq)

/-- With the report queue full the buffer is lost and counted (R122 (4)). -/
theorem State.closeBuffer_lost {s : State} {i : StreamId} (h : s.coll.buffers.at i ≠ []) (hq : ¬ s.coll.queue.length < 12) :
    s.closeBuffer i = (s.withGlobals (s.req.globals.lose (s.coll.buffers.at i).length)).withColl
      ((s.coll.discard i).setTally i 0) := (if_neg h).trans (if_neg hq)

theorem State.closeBuffer_withBus (s : State) (b : CycleEngine) (i : StreamId) :
    (s.withBus b).closeBuffer i = (s.closeBuffer i).withBus b := by
  by_cases hempty : s.coll.buffers.at i = []
  · rw [State.closeBuffer_empty hempty, State.closeBuffer_empty (s := s.withBus b) hempty]
    rfl
  · by_cases hroom : s.coll.queue.length < 12
    · rw [State.closeBuffer_room hempty hroom, State.closeBuffer_room (s := s.withBus b) hempty hroom]
      rfl
    · rw [State.closeBuffer_lost hempty hroom, State.closeBuffer_lost (s := s.withBus b) hempty hroom]
      rfl

theorem State.closeStream_withBus (s : State) (b : CycleEngine) (i : StreamId) (drainEnded : Bool) :
    (s.withBus b).closeStream i drainEnded = (s.closeStream i drainEnded).withBus b := by
  unfold State.closeStream
  rw [State.opening_withBus]
  cases s.opening i with
  | none => rfl
  | some o =>
    exact congrArg (fun u : State => u.answerClosing i drainEnded) (State.closeBuffer_withBus
      ((((s.withOpening i none).withRing ((s.ring.giveBack o.blockMap).leaveSweep i)).withNotices i {}).withColl
        (s.coll.unstall i)) b i)

theorem State.endDrains_withBus (s : State) (b : CycleEngine) (p : Opening → Bool) :
    (s.withBus b).endDrains p = (s.endDrains p).withBus b := by
  unfold State.endDrains
  generalize allStreams = l
  induction l generalizing s with
  | nil => rfl
  | cons i l ih =>
    have hone : (s.withBus b).endDrain p i = (s.endDrain p i).withBus b := by
      unfold State.endDrain
      rw [State.opening_withBus]
      cases s.opening i with
      | none => rfl
      | some o =>
        simp only
        split
        · exact s.closeStream_withBus b i true
        · rfl
    rw [List.foldl_cons, List.foldl_cons, hone, ih]

theorem State.applySwap_withBus (s : State) (b : CycleEngine) : (s.withBus b).applySwap = s.applySwap.withBus b :=
  State.endDrains_withBus ((s.withPlans { s.plans with active := s.plans.staged, staged := [] }).recount s.plans.staged) b _

theorem State.settleSwap_withBus (s : State) (b : CycleEngine) (cycle : Option Half) :
    (s.withBus b).settleSwap cycle = (s.settleSwap cycle).withBus b := by
  cases hp : s.plans.swapPending with
  | false => rw [State.settleSwap_none hp, State.settleSwap_none (s := s.withBus b) hp]
  | true =>
    rw [State.settleSwap_eq hp, State.settleSwap_eq (s := s.withBus b) hp, State.applySwap_withBus]
    generalize s.applySwap = u
    rfl

/-- The stop leaves the same whether the bus stops before the swap and the drains are settled or after. -/
theorem State.stopBus_eq (s : State) :
    s.stopBus = ((s.settleSwap none).endDrains fun _ => true).withBus s.bus.halted := by
  unfold State.stopBus
  rw [State.settleSwap_withBus, State.endDrains_withBus]

theorem State.changes.stopAfterCycle {n : Nat} {s t : State} (h : s.changes n t) (hb : t.bus.state = .halting) :
    s.changes n t.stopAfterCycle := by
  have hsettled : s.changes n ((t.settleSwap none).endDrains fun _ => true) := (h.settleSwap none).endDrains _
  have hbus : ((t.settleSwap none).endDrains fun _ => true).bus = t.bus := by
    obtain ⟨-, -, -, -, -, hbus, -⟩ := (t.settleSwap none).endDrains_spec fun _ => true
    rw [hbus, State.settleSwap_bus]
  unfold State.stopAfterCycle
  rw [State.stopBus_eq]
  generalize (t.settleSwap none).endDrains (fun _ => true) = u at hsettled hbus
  rw [← hbus]
  exact hsettled.trans (.stops _ (hbus ▸ hb))

theorem State.changes.afterOutcome {n : Nat} {s t : State} (h : s.changes n t) : s.changes n t.afterOutcome := by
  have hended : s.changes n (t.withBus t.bus.cycleEnded) := h.withBus Iff.rfl
  unfold State.afterOutcome State.endCycle
  split
  · split
    · next hhalting => exact hended.stopAfterCycle hhalting
    · exact hended
  · exact h

end Sys2Proof.Machine
end

section
/-! SUPPORT. The changes that each command makes, and the inversion of exec and step into them. -/

namespace Sys2Proof.Machine

/-! ## Requests about streams -/

theorem State.refuse_changes (s : State) (f : Frame) (status : Status) : s.changes 1 (s.refuse f status) :=
  (State.changes.refl s).refuse ..

theorem State.replyTo_changes (s : State) (f : Frame) (status : Status) (result : ReplyResult) :
    s.changes 1 (s.replyTo f status result) := (State.changes.refl s).replyTo ..

/-- A request about an open stream changes by one reply or entry if what it does to the open stream does. -/
theorem State.onOpen_changes {s : State} {f : Frame} {b : Byte} {k : StreamId → Opening → State}
    (h : ∀ i o, s.opening i = some o → s.changes 1 (k i o)) : s.changes 1 (s.onOpen f b k) := by
  unfold State.onOpen
  split
  · exact s.refuse_changes ..
  · next i _ =>
    split
    · exact s.refuse_changes ..
    · next o ho => exact h i o ho

theorem handleHello_changes (f : Frame) (s : State) : s.changes 1 (handleHello f s) := by
  unfold handleHello
  split
  · exact s.refuse_changes ..
  · exact s.replyTo_changes ..

theorem handleOpen_changes (f : Frame) (s : State) : s.changes 1 (handleOpen f s) := by
  unfold handleOpen
  split
  · exact s.refuse_changes ..
  · split
    · exact s.refuse_changes ..
    · split
      · exact s.refuse_changes ..
      · next haccepted => exact .opens f haccepted

theorem State.closeNow_changes (s : State) (f : Frame) (i : StreamId) : s.changes 1 (s.closeNow f i) :=
  ((State.changes.refl s).closeStream i false).replyTo ..

theorem handleCloseAtOnce_changes (f : Frame) (s : State) : s.changes 1 (handleCloseAtOnce f s) := by
  unfold handleCloseAtOnce
  split
  · exact s.refuse_changes ..
  · exact State.onOpen_changes fun i _ _ => s.closeNow_changes f i

theorem State.drainOrClose_changes {s : State} {i : StreamId} {o : Opening} (f : Frame) (ho : s.opening i = some o) :
    s.changes 1 (s.drainOrClose f i o) := by
  unfold State.drainOrClose
  split
  · exact s.closeNow_changes f i
  · exact s.closeNow_changes f i
  · exact s.closeNow_changes f i
  · exact s.refuse_changes ..
  · next hplays =>
    split
    · exact s.closeNow_changes f i
    · split
      · exact s.refuse_changes ..
      · next hroom => exact .drains f ho hplays (Bool.not_eq_true _ ▸ hroom)

theorem handleCloseWithDrain_changes (f : Frame) (s : State) : s.changes 1 (handleCloseWithDrain f s) := by
  unfold handleCloseWithDrain
  split
  · exact s.refuse_changes ..
  · exact State.onOpen_changes fun i o ho => State.drainOrClose_changes f ho

theorem Opening.resumedPhase_deferred (o : Opening) : o.resumedPhase.deferred = none := by
  unfold Opening.resumedPhase
  split <;> rfl

theorem State.resumePlain_changes {s : State} {i : StreamId} {o : Opening} (f : Frame) (ho : s.opening i = some o) :
    s.changes 1 (s.resumePlain f i o) := by
  unfold State.resumePlain
  split
  · next hstarved =>
    have hcalm : o.calm { o with missRun := 0, phase := o.resumedPhase } :=
      ⟨⟨rfl, rfl, rfl, rfl⟩, by rw [hstarved]; exact o.resumedPhase_deferred⟩
    exact ((State.changes.refl s).withOpening ho hcalm).replyTo ..
  · exact s.replyTo_changes ..

theorem handleResumeWithoutSequence_changes (f : Frame) (s : State) : s.changes 1 (handleResumeWithoutSequence f s) := by
  unfold handleResumeWithoutSequence
  split
  · exact s.refuse_changes ..
  · exact State.onOpen_changes fun i o ho => State.resumePlain_changes f ho

theorem Phase.deferred_eq_none {x : Phase} (h : ¬ (x = .sweeping ∨ x = .draining)) : x.deferred = none := by
  cases x with
  | sweeping => exact absurd (.inl rfl) h
  | draining => exact absurd (.inr rfl) h
  | priming => rfl
  | playing => rfl
  | starved => rfl

theorem State.resumeAt_changes {s : State} {i : StreamId} {o : Opening} (f : Frame) (start : Half) (ho : s.opening i = some o) :
    s.changes 1 (s.resumeAt f start i o) := by
  unfold State.resumeAt
  split
  · exact s.replyTo_changes ..
  · next hsettled =>
    split
    · exact s.refuse_changes ..
    · next hroom => exact .restarts f start ho (Phase.deferred_eq_none hsettled) (Bool.not_eq_true _ ▸ hroom)

theorem handleResumeWithStartSequence_changes (f : Frame) (s : State) :
    s.changes 1 (handleResumeWithStartSequence f s) := by
  unfold handleResumeWithStartSequence
  split
  · exact s.refuse_changes ..
  · exact s.refuse_changes ..
  · exact State.onOpen_changes fun i o ho => State.resumeAt_changes f _ ho

theorem State.changes.comparePlay {n : Nat} {s t : State} (h : s.changes n t) (i : StreamId) :
    s.changes n (t.comparePlay i) := by
  unfold State.comparePlay
  split
  · exact h
  · next o ho =>
    split
    · next hplays => exact h.startPlaying ho (by rw [hplays.1]; rfl)
    · exact h

theorem State.changes.compareStarve {n : Nat} {s t : State} (h : s.changes n t) (i : StreamId) :
    s.changes n (t.compareStarve i) := by
  unfold State.compareStarve
  split
  · exact h
  · next o ho =>
    split
    · next hstarves => exact h.starve ho (by rw [hstarves.1]; rfl)
    · exact h

theorem State.applyTune_changes {s : State} {i : StreamId} {o : Opening} (q : TuneRequest) (ho : s.opening i = some o) :
    s.changes 0 (s.applyTune q i o) := by
  have hfields : s.changes 0 (s.withOpening i (some (o.tuned q))) :=
    (State.changes.refl s).withOpening ho ⟨⟨rfl, rfl, rfl, rfl⟩, rfl⟩
  exact (((hfields.withNotices ..).retuneBatch ..).comparePlay i).compareStarve i

theorem handleTune_changes (f : Frame) (s : State) : s.changes 1 (handleTune f s) := by
  unfold handleTune
  split
  · exact s.refuse_changes ..
  · refine State.onOpen_changes fun i o ho => ?_
    exact State.changes_ite (s.refuse_changes ..)
      (State.changes_ite (s.refuse_changes ..) ((State.applyTune_changes _ ho).replyTo ..))

theorem handleQuery_changes (f : Frame) (s : State) : s.changes 1 (handleQuery f s) := by
  unfold handleQuery
  split
  · exact s.refuse_changes ..
  · split
    · exact s.refuse_changes ..
    · exact s.replyTo_changes ..

/-! ## Requests about the part -/

theorem State.countersOf_changes (s : State) (f : Frame) (clear : Bool) (target : CountersTarget) :
    s.changes 1 (s.countersOf f clear target) := by
  have hself := State.changes.refl s
  cases target with
  | stream i => exact (State.changes_ite (hself.withCounters ..) hself).replyTo ..
  | global =>
    have hclear : s.changes 0 s.clearGlobalCounters := (hself.withGlobals _).withLink id id
    exact (State.changes_ite hclear hself).replyTo ..

theorem handleCounters_changes (f : Frame) (s : State) : s.changes 1 (handleCounters f s) := by
  unfold handleCounters
  split
  · exact s.refuse_changes ..
  · split
    · exact s.refuse_changes ..
    · exact s.countersOf_changes ..

theorem State.flushStream_changes (s : State) (f : Frame) (i : StreamId) (o : Opening) : s.changes 1 (s.flushStream f i o) := by
  unfold State.flushStream
  split
  · exact s.refuse_changes ..
  · split
    · exact s.replyTo_changes ..
    · split
      · exact s.refuse_changes ..
      · next hroom =>
        exact ((State.changes.refl s).withColl fun _ => Collector.form_queue i _ false (Nat.not_le.1 hroom)).replyTo ..

theorem handleFlush_changes (f : Frame) (s : State) : s.changes 1 (handleFlush f s) := by
  unfold handleFlush
  split
  · exact s.refuse_changes ..
  · exact State.onOpen_changes fun i o _ => s.flushStream_changes f i o

theorem handleStage_changes (f : Frame) (s : State) : s.changes 1 (handleStage f s) := by
  unfold handleStage
  split
  · exact s.refuse_changes ..
  · split
    · exact s.refuse_changes ..
    · split
      · exact s.refuse_changes ..
      · next p _ => exact ((State.changes.refl s).withPlans (p := { s.plans with staged := p }) rfl).replyTo ..

theorem handleSwap_changes (f : Frame) (s : State) : s.changes 1 (handleSwap f s) := by
  unfold handleSwap
  split
  · exact s.refuse_changes ..
  · split
    · exact s.refuse_changes ..
    · next hidle =>
      split
      · exact s.refuse_changes ..
      · split
        · exact (State.changes.refl s).applySwap.replyTo ..
        · split
          · exact s.refuse_changes ..
          · next hroom => exact .marksSwap f (Bool.not_eq_true _ ▸ hidle) (Bool.not_eq_true _ ▸ hroom)

theorem handleStart_changes (f : Frame) (s : State) : s.changes 1 (handleStart f s) := by
  unfold handleStart
  split
  · exact s.refuse_changes ..
  · split
    · exact s.refuse_changes ..
    · exact s.replyTo_changes ..
    · next hstopped =>
      split
      · exact s.refuse_changes ..
      · have hnot : s.bus.state ≠ .halting := by simp [hstopped]
        exact ((State.changes.refl s).withBus (b := s.bus.started) (iff_of_false (by exact nofun) hnot)).replyTo ..

theorem handleHalt_changes (f : Frame) (s : State) : s.changes 1 (handleHalt f s) := by
  unfold handleHalt
  split
  · exact s.refuse_changes ..
  · split
    · exact s.replyTo_changes ..
    · exact s.refuse_changes ..
    · next hruns =>
      split
      · split
        · exact s.refuse_changes ..
        · next hroom => exact .halts f hruns (Bool.not_eq_true _ ▸ hroom)
      · exact ((State.changes.refl s).stopBus (by simp [hruns])).replyTo ..

theorem handlePeriod_changes (f : Frame) (s : State) : s.changes 1 (handlePeriod f s) := by
  unfold handlePeriod
  split
  · exact s.refuse_changes ..
  · next p _ =>
    split
    · exact s.refuse_changes ..
    · exact ((State.changes.refl s).withBus (b := { s.bus with period := p }) Iff.rfl).replyTo ..

theorem RingStore.softReset_freeBlocks (r : RingStore) : r.softReset.freeBlocks = List.finRange 256 := by
  simp only [RingStore.softReset]

theorem State.softReset_blank (s : State) : s.blank (s.withReq s.req.emptyReplies.cancelAll).softReset where
  closed := State.opening_softReset _
  freeBlocks := s.ring.softReset_freeBlocks
  sweepQueue := rfl
  engine := rfl
  entries := .inr rfl
  table := rfl
  mark := rfl
  stopped := rfl
  handling := .inl rfl
  replies := by
    show (([] : List Reply) ++ s.req.pendingTable.map fun e => e.reply .cancelled .none).length ≤ _
    rw [List.nil_append, List.length_map]
    exact Nat.le_add_left ..
  fits hf := ⟨hf.1, Nat.zero_le _, Nat.zero_le _⟩

theorem handleReset_changes (f : Frame) (s : State) : s.changes 1 (handleReset f s) := by
  unfold handleReset
  split
  · exact s.refuse_changes ..
  · exact (State.changes.blanks s.softReset_blank).replyTo ..

/-! ## Bundles and frames without a reply -/

/-- A frame with tag 0 that is no request gets no reply (R51, R146). -/
def replyWeight (f : Frame) : Nat := if tagOf f = 0 then 0 else 1

theorem State.countBadForm_changes (s : State) (f : Frame) (status : Status) :
    s.changes (replyWeight f) (if tagOf f = 0 then
      s.withLink { s.link with counters := { s.link.counters with badForm := s.link.counters.badForm + 1 } }
      else s.refuse f status) := by
  unfold replyWeight
  split
  · exact (State.changes.refl s).withLink id id
  · exact s.refuse_changes ..

theorem handleUnknownKind_changes (f : Frame) (s : State) : s.changes (replyWeight f) (handleUnknownKind f s) :=
  s.countBadForm_changes ..

theorem State.changes.acknowledge {s t : State} (h : s.changes 0 t) (f : Frame) (i : StreamId) (status : Status)
    (n : PlaceCounts) : s.changes (replyWeight f) (t.acknowledge f i status n) := by
  unfold State.acknowledge replyWeight
  split
  · exact h
  · exact h.replyTo ..

theorem State.changes.testStart {n : Nat} {s t : State} (h : s.changes n t) (i : StreamId) : s.changes n (t.testStart i) :=
  h.comparePlay i

theorem State.changes.noteDiscards {n : Nat} {s t : State} (h : s.changes n t) (i : StreamId) (c : PlaceCounts) :
    s.changes n (t.noteDiscards i c) := State.changes_ite h (h.raiseNotice ..)

theorem State.classifyBundle_changes {s : State} {q : BundleRequest} {o : Opening} (f : Frame)
    (ho : s.opening q.stream = some o) (hswept : o.phase ≠ .sweeping) :
    s.changes (replyWeight f) (s.classifyBundle f q o) := by
  have hplace : s.changes 0 (s.placeBundle q o) := (State.changes.refills ho hswept (s.refills_classified q o)).withCounters ..
  exact ((hplace.testStart _).noteDiscards ..).acknowledge ..

theorem State.takeBundle_changes (s : State) (f : Frame) (q : BundleRequest) :
    s.changes (replyWeight f) (s.takeBundle f q) := by
  have hrefused : s.changes (replyWeight f) (s.refuseBundle f q) := ((State.changes.refl s).withCounters ..).acknowledge ..
  unfold State.takeBundle
  split
  · exact ((State.changes.refl s).withGlobals _).acknowledge ..
  · next o ho =>
    have hclassified := fun h => State.classifyBundle_changes (q := q) f ho h
    split
    · exact hrefused
    · exact hrefused
    · next hp => exact hclassified (by simp [hp])
    · next hp => exact hclassified (by simp [hp])
    · next hp => exact hclassified (by simp [hp])

theorem handleBundle_changes (f : Frame) (s : State) : s.changes (replyWeight f) (handleBundle f s) := by
  unfold handleBundle
  split
  · exact s.countBadForm_changes ..
  · exact s.takeBundle_changes ..

/-! ## Sweeps, visits and outcomes -/

theorem State.voidNext_changes {s : State} {i : StreamId} {voided : Nat} (hbusy : s.ring.engine = .busy i voided) :
    s.changes 0 (s.voidNext i voided) := by
  unfold State.voidNext
  split
  · exact .refl s
  · next o ho =>
    split
    · exact .refl s
    · next b hb =>
      have hvoids := State.changes.voids hbusy ho hb
      split
      · next hlast =>
        exact hvoids.trans (.finishes (congrArg (SweepEngine.busy i) hlast) ((State.opening_withRing ..).trans ho))
      · exact hvoids

/-- An open record written as it is changes nothing. -/
theorem State.withOpening_self {s : State} {i : StreamId} {o : Opening} (ho : s.opening i = some o) :
    s.withOpening i (some o) = s := by
  unfold State.withOpening
  rw [StreamRec.eta_opening ho]
  show { s with streams := s.streams.put i (s.streams.at i) } = s
  rw [PerStream.put_at]

theorem State.consumingVisit_changes {s : State} {i : StreamId} {o : Opening} (ho : s.opening i = some o)
    (hp : o.phase = .playing ∨ o.phase = .draining) : s.changes 0 (s.consumingVisit i o) := by
  have hswept : o.phase ≠ .sweeping := by
    rintro he
    simp [he] at hp
  unfold State.consumingVisit
  split
  · next v r hfresh => exact (State.changes.refills ho hswept (State.refills_fresh hfresh)).withCounters ..
  · next r hstale =>
    split
    · have hring := State.changes.refills ho hswept (State.refills_draining hstale)
      rw [State.withOpening_self (s := s.withRing r) ho] at hring
      exact (hring.withCounters ..).closeStream ..
    · next hplaying =>
      have hsettled : o.afterStale.phase.deferred = none := by
        have hphase : o.afterStale.phase = .playing := hp.resolve_right hplaying
        rw [hphase]
        rfl
      have hring := (State.changes.refills ho hswept (State.refills_afterStale hstale)).withCounters i
        (s.counters i).countSubstituted
      exact State.changes_ite (hring.starve (by simp) hsettled) hring

theorem State.visited_changes (s : State) (i : StreamId) : s.changes 0 (s.visited i) := by
  unfold State.visited
  split
  · exact .refl s
  · next o ho =>
    split
    · exact .refl s
    · exact .refl s
    · exact .refl s
    · next hp => exact State.consumingVisit_changes ho (.inl hp)
    · next hp => exact State.consumingVisit_changes ho (.inr hp)

theorem State.runSlot_changes (s : State) (k : Nat) (e : PlanEntry) : s.changes 0 (s.runSlot k e) := by
  cases e with
  | idle => exact (State.changes.refl s).withBus Iff.rfl
  | stream i =>
    have hbus : (s.visited i).bus = s.bus := (s.quiet_visited i).bus
    exact (s.visited_changes i).withBus (by rw [hbus]; rfl)

theorem State.markOutcome_changes {s : State} {i : StreamId} {o : Opening} (x : ReturnOutcome) (ho : s.opening i = some o) :
    s.changes 0 (s.markOutcome i o x) := by
  have hrun : s.changes 0 (s.withOpening i (some { o with silentRun := silentRunAfter o.silentRun x })) :=
    (State.changes.refl s).withOpening ho ⟨⟨rfl, rfl, rfl, rfl⟩, rfl⟩
  have hmark := hrun.withCounters i ((s.counters i).countOutcome x)
  exact State.changes_ite (hmark.raiseNotice ..) hmark

theorem State.takeOutcome_changes (s : State) (r : SlotRecord) (x : ReturnOutcome) : s.changes 0 (s.takeOutcome r x) := by
  have hself := State.changes.refl s
  have hcount : s.changes 0 s.countOrphan := hself.withGlobals _
  unfold State.takeOutcome
  split
  · exact State.changes_ite hself (hself.withGlobals _)
  · split
    · exact hcount
    · next o ho => exact State.changes_ite ((State.markOutcome_changes x ho).handRecord ..) hcount

theorem State.endSlot_changes (s : State) (r : SlotRecord) (x : ReturnOutcome) : s.changes 0 (s.endSlot r x) := by
  have htaken := s.takeOutcome_changes r x
  unfold State.endSlot
  generalize s.takeOutcome r x = u at htaken ⊢
  exact (htaken.withBus (b := u.bus.slotEnded r.index) Iff.rfl).afterOutcome

theorem State.beginCycle_changes (s : State) (time : Nat) : s.changes 0 (s.beginCycle time) :=
  ((State.changes.refl s).settleSwap _).withBus Iff.rfl

/-! ## Bytes and frames of the feed link -/

theorem State.takeLength_changes (s : State) (b : Byte) (crc : Half) : s.changes 0 (s.takeLength b crc) := by
  have hself := State.changes.refl s
  exact State.changes_ite (hself.withLink id id) (State.changes.linkFault (t := (s.withRx .hunt).withLinkCounters _)
    ((hself.withLink (l := { s.link with rx := .hunt }) id id).withLink id id))

theorem State.changes.offer {s t : State} (h : s.changes 0 t) (f : Frame) : s.changes 0 (t.offer f) := by
  unfold State.offer
  split
  · next hroom =>
    refine h.withLink (fun _ => ?_) id
    rw [List.length_append]
    exact hroom
  · exact State.changes.linkFault (t := t.withLinkCounters _) (h.withLink id id)

theorem State.takeCheck_changes (s : State) (good : Prop) [Decidable good] (taken : Frame) :
    s.changes 0 (if good then (s.withRx .hunt).offer taken else (s.withRx .hunt).badCheck) := by
  have hhunt : s.changes 0 (s.withRx .hunt) := (State.changes.refl s).withLink id id
  exact State.changes_ite (hhunt.offer taken)
    (State.changes.linkFault (t := (s.withRx .hunt).withLinkCounters _) (hhunt.withLink id id))

theorem State.timeOut_changes (s : State) : s.changes 0 s.timeOut :=
  State.changes.linkFault (t := (s.withRx .hunt).withLinkCounters _)
    (((State.changes.refl s).withLink (l := { s.link with rx := .hunt }) id id).withLink id id)

/-- A frame that is no report sent: frames since report never pass 4 (R137). -/
theorem State.changes.countAndSend {s t : State} (h : s.changes 0 t) (body : List Byte) :
    s.changes 0 (t.countFrame.send body) :=
  (h.withLink (l := { t.link with sinceReport := min (t.link.sinceReport + 1) 4 }) id fun _ => Nat.min_le_right ..).withLink
    id id

/-- The report queue after a pick: the head gone, the head of the stall list, if any, handed on (R116). -/
theorem State.releaseStall_changes {s : State} {r : Report} {rest : List Report} (h : s.coll.queue = r :: rest) :
    s.changes 0 (s.withColl { s.coll with queue := rest }).releaseStall := by
  have hself := State.changes.refl s
  have hlt : ∀ n, s.coll.queue.length ≤ n → rest.length < n := fun n hn => by
    rw [h, List.length_cons] at hn
    omega
  unfold State.releaseStall
  split
  · exact hself.withColl fun hq => (hlt 12 hq).le
  · next j stalled _ =>
    exact hself.withColl (c := ({ s.coll with queue := rest, stallList := stalled } : Collector).form j (s.stream j).generation false)
      fun hq => Collector.form_queue j _ false (hlt 12 hq)

theorem State.pickOf_changes (s : State) (choice : PickChoice) : s.changes 0 (s.pickOf choice) := by
  have hself := State.changes.refl s
  cases choice with
  | report =>
    show s.changes 0 s.pickReport
    unfold State.pickReport
    split
    · exact hself
    · next r rest hq =>
      have hreleased := State.releaseStall_changes hq
      generalize (s.withColl { s.coll with queue := rest }).releaseStall = u at hreleased ⊢
      exact (hreleased.withLink (l := { u.link with sinceReport := 0 }) id fun _ => Nat.zero_le _).withLink id id
  | reply =>
    show s.changes 0 s.pickReply
    unfold State.pickReply
    split
    · exact hself
    · next r rest hq =>
      have hpicked : s.changes 0 (s.withReq { s.req with replyQueue := rest }) :=
        .rests (State.rests_frame (fun _ => rfl) rfl rfl rfl rfl rfl (by simp [hq]) id)
      exact hpicked.countAndSend _
  | linkNotice =>
    have hpicked : s.changes 0 (s.withReq { s.req with link := .clear }) := hself.frame (fun _ => rfl) rfl rfl rfl rfl rfl rfl id
    exact hpicked.countAndSend _
  | streamNotice i k =>
    have hcounted := (hself.withNotices i ((s.noticesOf i).setCell k .clear)).withLink
      (l := { s.link with sinceReport := min (s.link.sinceReport + 1) 4 }) id fun _ => Nat.min_le_right ..
    exact (hcounted.withLink (l := { s.link with sinceReport := min (s.link.sinceReport + 1) 4, lastNotice := i }) id id).withLink
      id id

/-! ## Every command -/

theorem State.powerOn_blank (s : State) (rate : Option LinkRate) (rstLow : Bool) : s.blank (s.powerOn rate rstLow) where
  closed := s.opening_powerOn rate rstLow
  freeBlocks := by simp only [State.powerOn]
  sweepQueue := rfl
  engine := rfl
  entries := .inl rfl
  table := rfl
  mark := rfl
  stopped := rfl
  handling := .inr rfl
  replies := Nat.zero_le _
  fits _ := ⟨Nat.zero_le _, Nat.zero_le _, Nat.zero_le _⟩

theorem State.powerOn_changes (s : State) (rate : Option LinkRate) (rstLow : Bool) : s.changes 0 (s.powerOn rate rstLow) :=
  .blanks (s.powerOn_blank rate rstLow)

theorem State.released_changes (s : State) (rate : LinkRate) : s.changes 0 (s.released rate) :=
  (State.changes.refl s).frame (fun _ => rfl) rfl rfl rfl rfl rfl rfl fun hf => ⟨Nat.zero_le _, hf.2.1, Nat.zero_le _⟩

theorem State.setClock_changes (s : State) (running : Bool) : s.changes 0 { s with clockRunning := running } :=
  (State.changes.refl s).frame (fun _ => rfl) rfl rfl rfl rfl rfl rfl id

/-- A step of the part: changes with no new reply or entry; or a frame taken, and handled by changes with at most one, and none
where the frame needs no reply. -/
def State.proceeds (s t : State) : Prop :=
  s.changes 0 t ∨ ∃ f rest n u, s.canTake f rest ∧ (n = 0 ∨ n = 1 ∧ needsReply f = true) ∧
    (s.beginHandling f).changes n u ∧ t = u.endHandling

/-- A frame taken by the row of a request needs a reply (R143). -/
theorem needsReply_of_request {f : Frame} {c : Instr} (h : frameCommand f = c) (hb : c ≠ .bundle) (hu : c ≠ .unknownKind) :
    needsReply f = true := by
  have hkind : 1 ≤ (kindOf f).toNat ∧ (kindOf f).toNat ≤ 14 := by
    unfold frameCommand at h
    split at h
    any_goals omega
    · exact absurd h.symm hb
    · exact absurd h.symm hu
  unfold needsReply isRequestKind
  rw [decide_eq_true hkind, Bool.true_or]

theorem needsReply_of_replyWeight {f : Frame} : replyWeight f = 0 ∨ replyWeight f = 1 ∧ needsReply f = true := by
  unfold replyWeight
  split
  · exact .inl rfl
  · next htag => exact .inr ⟨rfl, by unfold needsReply; rw [decide_eq_true htag, Bool.or_true]⟩

/-- A request's handling proceeds. -/
theorem handleHead_proceeds {c : Instr} {handle : Frame → State → State} {weight : Frame → Nat}
    (h : ∀ (f : Frame) (s : State), s.changes (weight f) (handle f s))
    (hw : ∀ f, frameCommand f = c → weight f = 0 ∨ weight f = 1 ∧ needsReply f = true) {s t : State}
    (ht : handleHead c handle s = .next t) : s.proceeds t := by
  rcases handleHead_cases c handle s with hnone | ⟨f, rest, htake, hc, hsome⟩
  · rw [hnone] at ht
    cases ht
    exact .inl (.refl s)
  · rw [hsome] at ht
    cases ht
    exact .inr ⟨f, rest, weight f, _, htake, hw f hc, h f _, rfl⟩

theorem exec_proceeds {c : Instr} {s t : State} (h : exec c s = .next t) : s.proceeds t := by
  have hself := State.changes.refl s
  have hrequest : ∀ {handle : Frame → State → State}, (∀ (f : Frame) (s : State), s.changes 1 (handle f s)) →
      c ≠ .bundle → c ≠ .unknownKind → handleHead c handle s = .next t → s.proceeds t := fun hh hb hu =>
    handleHead_proceeds (weight := fun _ => 1) hh fun f hc => .inr ⟨rfl, needsReply_of_request hc hb hu⟩
  cases c with
  | powerOnReset cause rate1 rate0 =>
    cases h
    refine .inl ?_
    split
    · exact s.powerOn_changes ..
    · exact s.powerOn_changes ..
    · exact State.changes_onlyIf _ (s.powerOn_changes ..)
  | rstRelease rate1 rate0 => cases h; exact .inl (State.changes_onlyIf _ (s.released_changes _))
  | syncByte => cases h; exact .inl (State.changes_onlyIf _ (hself.withLink id id))
  | huntByte b => cases h; exact .inl (State.changes_onlyIf _ (hself.withLink id id))
  | lengthByte b =>
    cases h
    refine .inl ?_
    split
    · exact State.changes_onlyIf _ (s.takeLength_changes ..)
    · exact hself
  | bodyByte b =>
    cases h
    refine .inl ?_
    split
    · exact State.changes_onlyIf _ (hself.withLink id id)
    · exact hself
  | highCheckByte b =>
    cases h
    refine .inl ?_
    split
    · exact State.changes_onlyIf _ (hself.withLink id id)
    · exact hself
  | lowCheckByte b =>
    cases h
    refine .inl ?_
    split
    · exact State.changes_onlyIf _ (s.takeCheck_changes ..)
    · exact hself
  | interByteTimeout => cases h; exact .inl (State.changes_onlyIf _ s.timeOut_changes)
  | hello => exact hrequest handleHello_changes nofun nofun h
  | openStream => exact hrequest handleOpen_changes nofun nofun h
  | closeAtOnce => exact hrequest handleCloseAtOnce_changes nofun nofun h
  | closeWithDrain => exact hrequest handleCloseWithDrain_changes nofun nofun h
  | resumeWithoutSequence => exact hrequest handleResumeWithoutSequence_changes nofun nofun h
  | resumeWithStartSequence => exact hrequest handleResumeWithStartSequence_changes nofun nofun h
  | tune => exact hrequest handleTune_changes nofun nofun h
  | query => exact hrequest handleQuery_changes nofun nofun h
  | counters => exact hrequest handleCounters_changes nofun nofun h
  | flush => exact hrequest handleFlush_changes nofun nofun h
  | stage => exact hrequest handleStage_changes nofun nofun h
  | swap => exact hrequest handleSwap_changes nofun nofun h
  | start => exact hrequest handleStart_changes nofun nofun h
  | halt => exact hrequest handleHalt_changes nofun nofun h
  | period => exact hrequest handlePeriod_changes nofun nofun h
  | reset => exact hrequest handleReset_changes nofun nofun h
  | bundle => exact handleHead_proceeds handleBundle_changes (fun _ _ => needsReply_of_replyWeight) h
  | unknownKind => exact handleHead_proceeds handleUnknownKind_changes (fun _ _ => needsReply_of_replyWeight) h
  | blockVoided =>
    cases h
    refine .inl ?_
    split
    · exact hself
    · next hbusy => exact State.changes_onlyIf _ (State.voidNext_changes hbusy)
  | cycleStart =>
    cases h
    refine .inl ?_
    split
    · exact hself
    · exact State.changes_onlyIf _ (s.beginCycle_changes _)
  | slotEvent =>
    cases h
    refine .inl ?_
    split
    · exact hself
    · exact State.changes_onlyIf _ (s.runSlot_changes ..)
  | slotOutcome ret =>
    cases h
    refine .inl ?_
    split
    · exact hself
    · exact State.changes_onlyIf _ (s.endSlot_changes ..)
  | pick =>
    cases h
    refine .inl ?_
    split
    · exact hself
    · exact State.changes_onlyIf _ (s.pickOf_changes _)
  | frameSent =>
    cases h
    refine .inl ?_
    split
    · exact hself
    · exact State.changes_onlyIf _ (hself.withLink id id)
  | clockStops => cases h; exact .inl (s.setClock_changes false)
  | clockReturns => cases h; exact .inl (s.setClock_changes true)

theorem step_proceeds {s t : State} (h : step s = .next t) : s.proceeds t := by
  unfold step at h
  split at h
  · cases h
    exact .inl (State.changes_onlyIf _ ((State.changes.refl s).withBus Iff.rfl))
  · next c rest _ =>
    have hfront : s.changes 0 (s.withPending rest) := (State.changes.refl s).frame (fun _ => rfl) rfl rfl rfl rfl rfl rfl id
    rcases exec_proceeds h with hquiet | ⟨f, tail, n, u, htake, hn, hchange, ht⟩
    · exact .inl (hfront.trans hquiet)
    · have hbegin : (s.beginHandling f).changes 0 ((s.withPending rest).beginHandling f) :=
        (State.changes.refl _).frame (fun _ => rfl) rfl rfl rfl rfl rfl rfl id
      exact .inr ⟨f, tail, n, u, htake, hn, Nat.zero_add n ▸ hbegin.trans hchange, ht⟩

/-- What changes keep, and the beginning and the end of a handling, every step keeps. -/
theorem step_keeps_of_changes {P : State → Prop} (hchange : ∀ {n s t}, State.changes n s t → P s → P t)
    (hbegin : ∀ s f, P s → P (s.beginHandling f)) (hend : ∀ s, P s → P s.endHandling) {s t : State} (h : step s = .next t)
    (hs : P s) : P t := by
  rcases step_proceeds h with hquiet | ⟨f, rest, n, u, -, -, hhandled, rfl⟩
  · exact hchange hquiet hs
  · exact hend u (hchange hhandled (hbegin s f hs))

end Sys2Proof.Machine
end

section
/-! SUPPORT. The capacities (R21, R115, R132, R137, R145, R148), change by change. -/

namespace Sys2Proof.Machine

/-! ## What the changes find and leave -/

/-- What an accepted OPEN found (R6): ranges, a CLOSED stream, room in the pending table, and blocks enough. -/
theorem State.openRefusal_accepts {s : State} {q : OpenRequest} {i : StreamId} (h : s.openRefusal q i = none) :
    q.inRange = true ∧ s.opening i = none ∧ s.req.tableFull = false ∧ q.ringSize / 32 ≤ s.ring.freeBlocks.length := by
  have hclosed := (State.openRefusal_eq_none h).1
  unfold State.openRefusal at h
  split at h
  · cases h
  · next hrange =>
    split at h
    · cases h
    · split at h
      · cases h
      · split at h
        · cases h
        · next hroom =>
          split at h
          · cases h
          · next hspace => exact ⟨by simpa using hrange, hclosed, by simpa using hroom, Nat.not_lt.1 hspace⟩

theorem RequestUnit.tableFull_eq_false {u : RequestUnit} (h : u.tableFull = false) : u.pendingTable.length < 8 :=
  Nat.not_le.1 fun hle => absurd (u.tableFull_iff.2 hle) (by simp [h])

/-- The entry taken out of a list, and what is left of it. -/
theorem length_eraseP_add_find? {α : Type} (p : α → Bool) (l : List α) :
    (l.eraseP p).length + (l.find? p).toList.length = l.length := by
  induction l with
  | nil => rfl
  | cons a l ih =>
    cases hp : p a with
    | true => simp [hp]
    | false =>
      simp only [List.eraseP_cons_of_neg (by simpa using hp), List.find?_cons_of_neg (by simpa using hp), List.length_cons]
      omega

theorem Option.length_map_toList {α β : Type} (f : α → β) (x : Option α) : (x.map f).toList.length = x.toList.length := by
  cases x <;> rfl

/-- An answer takes at most one entry out of the table. -/
theorem RequestUnit.answer_table_le (u : RequestUnit) (p : PendingEntry → Bool) (reply : PendingEntry → Reply) :
    (u.answer p reply).pendingTable.length ≤ u.pendingTable.length := by
  rw [RequestUnit.answer_eq]
  exact List.length_eraseP_le

/-! ## The Ring Store's list -/

theorem RingStore.wf_of_nil {r : RingStore} (h : r.entries = []) : r.wf := by
  unfold RingStore.wf
  rw [h]
  exact ⟨List.Pairwise.nil, nofun⟩

theorem RingStore.voidedOne_entries (r : RingStore) (i : StreamId) (v : Nat) (b : BlockId) :
    (r.voidedOne i v b).entries = (r.voidBlock b).entries := by
  simp only [RingStore.voidedOne]

theorem State.ring_acceptOpen (s : State) (f : Frame) (q : OpenRequest) (i : StreamId) :
    (s.acceptOpen f q i).ring = (s.ring.dropHead (q.ringSize / 32)).joinSweep i := rfl

theorem State.changes.wf {n : Nat} {s t : State} (h : s.changes n t) (hs : s.ring.wf) : t.ring.wf := by
  induction h with
  | rests rest => rw [rest.ring]; exact hs
  | trans _ _ ihfirst ihsecond => exact ihsecond (ihfirst hs)
  | closes opened drainEnded =>
    obtain ⟨-, hentries, -⟩ := State.closeStream_closesTo opened drainEnded
    exact RingStore.wf_congr hentries hs
  | opens f accepted =>
    rw [State.ring_acceptOpen]
    exact RingStore.wf_joinSweep _ (RingStore.wf_congr rfl hs)
  | drains => exact hs
  | restarts => exact RingStore.wf_joinSweep _ hs
  | voids =>
    rw [State.withRing_ring]
    exact RingStore.wf_congr (RingStore.voidedOne_entries ..) (RingStore.wf_voidBlock _ hs)
  | finishes => exact RingStore.wf_engineFree hs
  | refills opened swept refill => exact refill.wf hs
  | marksSwap => exact hs
  | settlesSwap => exact hs
  | halts => exact hs
  | stops => exact hs
  | blanks blank =>
    rcases blank.entries with hnone | hsame
    · exact RingStore.wf_of_nil hnone
    · exact RingStore.wf_congr hsame hs

/-! ## Replies and entries -/

/-- The replies queued and the pending entries together (R145). -/
def RequestUnit.load (u : RequestUnit) : Nat := u.replyQueue.length + u.pendingTable.length

theorem RequestUnit.load_addPending (u : RequestUnit) (e : PendingEntry) : (u.addPending e).load = u.load + 1 := by
  unfold RequestUnit.load
  rw [RequestUnit.addPending_replyQueue, RequestUnit.addPending_pendingTable, List.length_append]
  rfl

theorem RequestUnit.load_answer (u : RequestUnit) (p : PendingEntry → Bool) (reply : PendingEntry → Reply) :
    (u.answer p reply).load = u.load := u.answer_sum p reply

theorem State.load_closeStream {s : State} {i : StreamId} {o : Opening} (ho : s.opening i = some o) (drainEnded : Bool) :
    (s.closeStream i drainEnded).req.load = s.req.load := by
  obtain ⟨-, -, -, -, -, -, -, -, -, -, -, -, htable, hreplies, -⟩ := State.closeStream_closesTo ho drainEnded
  have hsum := length_eraseP_add_find? (·.isOf i) s.req.pendingTable
  unfold RequestUnit.load
  rw [htable, hreplies, List.length_append, Option.length_map_toList]
  omega

/-- Changes raise the sum of replies and entries by no more than the number that joins (R145). -/
theorem State.changes.load {n : Nat} {s t : State} (h : s.changes n t) : t.req.load ≤ s.req.load + n := by
  induction h with
  | rests rest =>
    have := rest.replies
    unfold RequestUnit.load
    rw [rest.table]
    omega
  | trans _ _ ihfirst ihsecond => omega
  | closes opened drainEnded => exact (State.load_closeStream opened drainEnded).le
  | opens => exact (RequestUnit.load_addPending ..).le
  | drains => exact (RequestUnit.load_addPending ..).le
  | restarts => exact (RequestUnit.load_addPending ..).le
  | voids => exact le_rfl
  | finishes => exact (RequestUnit.load_answer ..).le
  | refills => exact le_rfl
  | marksSwap => exact (RequestUnit.load_addPending ..).le
  | settlesSwap => exact (RequestUnit.load_answer ..).le
  | halts => exact (RequestUnit.load_addPending ..).le
  | stops => exact (RequestUnit.load_answer ..).le
  | blanks blank =>
    unfold RequestUnit.load
    rw [blank.table]
    exact blank.replies

theorem RequestUnit.addPending_table_le {u : RequestUnit} (h : u.tableFull = false) (e : PendingEntry) :
    (u.addPending e).pendingTable.length ≤ 8 := by
  rw [RequestUnit.addPending_pendingTable, List.length_append]
  exact RequestUnit.tableFull_eq_false h

/-- An entry joins a table that is not full only (R148). -/
theorem State.changes.table_le {n : Nat} {s t : State} (h : s.changes n t) (hs : s.req.pendingTable.length ≤ 8) :
    t.req.pendingTable.length ≤ 8 := by
  induction h with
  | rests rest => rwa [rest.table]
  | trans _ _ ihfirst ihsecond => exact ihsecond (ihfirst hs)
  | closes opened drainEnded =>
    obtain ⟨-, -, -, -, -, -, -, -, -, -, -, -, htable, -⟩ := State.closeStream_closesTo opened drainEnded
    rw [htable]
    exact List.length_eraseP_le.trans hs
  | opens f accepted =>
    obtain ⟨-, -, hroom, -⟩ := State.openRefusal_accepts accepted
    exact RequestUnit.addPending_table_le hroom _
  | drains _ _ _ room => exact RequestUnit.addPending_table_le room _
  | restarts _ _ _ _ room => exact RequestUnit.addPending_table_le room _
  | voids => exact hs
  | finishes => exact (RequestUnit.answer_table_le ..).trans hs
  | refills => exact hs
  | marksSwap _ _ room => exact RequestUnit.addPending_table_le room _
  | settlesSwap => exact (RequestUnit.answer_table_le ..).trans hs
  | halts _ _ room => exact RequestUnit.addPending_table_le room _
  | stops => exact (RequestUnit.answer_table_le ..).trans hs
  | blanks blank =>
    rw [blank.table]
    exact Nat.zero_le _

/-! ## Queues and the handling -/

theorem State.queuesFit_closeStream {s : State} {i : StreamId} {o : Opening} (ho : s.opening i = some o) (drainEnded : Bool)
    (h : s.queuesFit) : (s.closeStream i drainEnded).queuesFit := by
  obtain ⟨-, -, -, -, -, -, -, -, -, -, hqueue, -, -, -, -, -, hlink, -⟩ := State.closeStream_closesTo ho drainEnded
  obtain ⟨hrx, hreports, hsince⟩ := h
  unfold State.queuesFit
  rw [hlink, hqueue]
  refine ⟨hrx, ?_, hsince⟩
  split
  · next hroom =>
    rw [List.length_append]
    exact hroom.2
  · rwa [List.append_nil]

theorem State.changes.queuesFit {n : Nat} {s t : State} (h : s.changes n t) (hs : s.queuesFit) : t.queuesFit := by
  induction h with
  | rests rest => exact rest.fits hs
  | trans _ _ ihfirst ihsecond => exact ihsecond (ihfirst hs)
  | closes opened drainEnded => exact State.queuesFit_closeStream opened drainEnded hs
  | opens => exact hs
  | drains => exact hs
  | restarts => exact hs
  | voids => exact hs
  | finishes => exact hs
  | refills => exact hs
  | marksSwap => exact hs
  | settlesSwap => exact hs
  | halts => exact hs
  | stops => exact hs
  | blanks blank => exact blank.fits hs

theorem RequestUnit.answer_handling (u : RequestUnit) (p : PendingEntry → Bool) (reply : PendingEntry → Reply) :
    (u.answer p reply).handling = u.handling := by
  rw [RequestUnit.answer_eq]

/-- No change begins a handling (R144). -/
theorem State.changes.handling {n : Nat} {s t : State} (h : s.changes n t) (hs : s.req.handling = none) :
    t.req.handling = none := by
  induction h with
  | rests rest => rwa [rest.handling]
  | trans _ _ ihfirst ihsecond => exact ihsecond (ihfirst hs)
  | closes opened drainEnded =>
    obtain ⟨-, -, -, -, -, -, -, -, -, -, -, -, -, -, -, -, -, -, hhandling, -⟩ :=
      State.closeStream_closesTo opened drainEnded
    rwa [hhandling]
  | opens => exact hs
  | drains => exact hs
  | restarts => exact hs
  | voids => exact hs
  | finishes => exact (RequestUnit.answer_handling ..).trans hs
  | refills => exact hs
  | marksSwap => exact hs
  | settlesSwap => exact (RequestUnit.answer_handling ..).trans hs
  | halts => exact hs
  | stops => exact (RequestUnit.answer_handling ..).trans hs
  | blanks blank =>
    rcases blank.handling with hsame | hnone
    · rwa [hsame]
    · exact hnone

/-! ## Every step -/

/-- A frame that needs a reply is taken only with at most 15 replies and entries (R144), and its handling adds at most one. -/
theorem State.proceeds.repliesFit {s t : State} (h : s.proceeds t) (hs : s.repliesFit) : t.repliesFit := by
  obtain ⟨hload, htable⟩ := hs
  have hload : s.req.load ≤ 16 := hload
  rcases h with hquiet | ⟨f, rest, n, u, htake, hn, hhandled, rfl⟩
  · exact ⟨hquiet.load.trans hload, hquiet.table_le htable⟩
  · have hbound : s.req.load + n ≤ 16 := by
      rcases hn with rfl | ⟨rfl, hneeds⟩
      · exact hload
      · obtain ⟨-, -, -, -, hplace⟩ := htake
        exact Nat.succ_le_succ (hplace hneeds)
    exact ⟨hhandled.load.trans hbound, hhandled.table_le htable⟩

/-- Settles O51: each capacity is kept by every change; the sum of replies and entries by what a take requires. -/
theorem everyStepKeepsCapacities : Obligations.EveryStepKeepsCapacities := by
  intro s t h
  refine ⟨step_keeps_of_changes (fun hc => hc.wf) (fun _ _ hs => hs) (fun _ hs => hs) h, (step_proceeds h).repliesFit,
    step_keeps_of_changes (fun hc => hc.queuesFit) (fun s _ hs => ⟨?_, hs.2⟩) (fun _ hs => hs) h, fun hs => ?_⟩
  · exact (Nat.le_of_eq List.length_tail).trans ((Nat.sub_le ..).trans hs.1)
  · rcases step_proceeds h with hquiet | ⟨f, rest, n, u, -, -, -, rfl⟩
    · exact hquiet.handling hs
    · rfl

end Sys2Proof.Machine
end

section
/-! SUPPORT. Blocks and shapes (R23, R26, R27), change by change. -/

namespace Sys2Proof.Machine

/-! ## Records rewritten and closed -/

/-- One open record rewritten, from `o` to `p`, and no other (R1). -/
structure State.rewrites (s t : State) (i : StreamId) (o p : Opening) : Prop where
  before : s.opening i = some o
  after : t.opening i = some p
  others : ∀ j, j ≠ i → t.opening j = s.opening j

/-- A state that has the records of `s` with one of them rewritten. -/
theorem State.rewrites_of {s t : State} {i : StreamId} {o p : Opening} (ho : s.opening i = some o)
    (ht : ∀ j, t.opening j = (s.withOpening i (some p)).opening j) : s.rewrites t i o p :=
  ⟨ho, (ht i).trans (State.opening_withOpening_self ..), fun j hj => (ht j).trans (State.opening_withOpening_ne _ _ hj)⟩

theorem State.rewrites_drains {s : State} {i : StreamId} {o : Opening} (f : Frame) (ho : s.opening i = some o) :
    s.rewrites ((s.withOpening i (some { o with phase := .draining })).defer f (.closeOf i)) i o
      { o with phase := .draining } := State.rewrites_of ho fun _ => rfl

theorem State.rewrites_restarts {s : State} {i : StreamId} {o : Opening} (f : Frame) (start : Half)
    (ho : s.opening i = some o) : s.rewrites
      (((s.withOpening i (some (o.restarted start))).withRing (s.ring.joinSweep i)).defer f (.resumeOf i)) i o
      (o.restarted start) := State.rewrites_of ho fun _ => rfl

theorem State.rewrites_finishes {s : State} {i : StreamId} {o : Opening} (ho : s.opening i = some o) :
    s.rewrites (s.sweepDone i o) i o o.swept := State.rewrites_of ho fun _ => rfl

theorem State.rewrites_refills {s : State} {i : StreamId} {o : Opening} (r : RingStore) (p : Opening)
    (ho : s.opening i = some o) : s.rewrites ((s.withRing r).withOpening i (some p)) i o p :=
  State.rewrites_of ho fun _ => rfl

/-- The Ring Store after a sweep: the engine free, the rest as it was (R31, R33). -/
theorem State.ring_sweepDone (s : State) (i : StreamId) (o : Opening) : (s.sweepDone i o).ring = s.ring.engineFree := rfl

theorem State.opening_closeStream {s : State} {i : StreamId} {o : Opening} (ho : s.opening i = some o) (drainEnded : Bool)
    (j : StreamId) : (s.closeStream i drainEnded).opening j = if j = i then none else s.opening j := by
  show ((s.closeStream i drainEnded).streams.at j).opening = _
  rw [(State.closeStream_closesTo ho drainEnded).1, PerStream.at_put]
  split <;> rfl

theorem State.opening_closeStream_ne {s : State} {i j : StreamId} {o : Opening} (ho : s.opening i = some o) (drainEnded : Bool)
    (h : j ≠ i) : (s.closeStream i drainEnded).opening j = s.opening j := by
  rw [State.opening_closeStream ho, if_neg h]

theorem RingStore.voidedOne_freeBlocks (r : RingStore) (i : StreamId) (v : Nat) (b : BlockId) :
    (r.voidedOne i v b).freeBlocks = r.freeBlocks := by
  simp only [RingStore.voidedOne, RingStore.voidBlock_freeBlocks]

/-- The ring of an accepted OPEN: its blocks from the head of the free list, the stream in the sweep (R7, R27, R30). -/
theorem State.freeBlocks_acceptOpen (s : State) (f : Frame) (q : OpenRequest) (i : StreamId) :
    (s.acceptOpen f q i).ring.freeBlocks = s.ring.freeBlocks.drop (q.ringSize / 32) := by
  rw [State.ring_acceptOpen, ((s.ring.dropHead _).joinSweep_spec i).2.2]
  rfl

/-! ## Rings as they were -/

/-- The size and the blocks of the ring are the same (R27). -/
structure Opening.sameSpace (o p : Opening) : Prop where
  ringSize : p.ringSize = o.ringSize
  blockMap : p.blockMap = o.blockMap

/-- No block moves and no ring changes its size. -/
structure State.keepsRings (s t : State) : Prop where
  freeBlocks : t.ring.freeBlocks = s.ring.freeBlocks
  spaces : ∀ i, Option.Rel Opening.sameSpace (s.opening i) (t.opening i)

theorem sameSpace_of_eq {x y : Option Opening} (h : y = x) : Option.Rel Opening.sameSpace x y := by
  rw [h]
  cases x with
  | none => exact .none
  | some o => exact .some ⟨rfl, rfl⟩

theorem State.keepsRings_of_opening {s t : State} (hf : t.ring.freeBlocks = s.ring.freeBlocks)
    (ho : ∀ i, t.opening i = s.opening i) : s.keepsRings t := ⟨hf, fun i => sameSpace_of_eq (ho i)⟩

theorem State.rewrites.keepsRings {s t : State} {i : StreamId} {o p : Opening} (h : s.rewrites t i o p)
    (hspace : o.sameSpace p) (hf : t.ring.freeBlocks = s.ring.freeBlocks) : s.keepsRings t where
  freeBlocks := hf
  spaces j := by
    by_cases hj : j = i
    · rw [hj, h.before, h.after]
      exact .some hspace
    · exact sameSpace_of_eq (h.others j hj)

theorem State.rests.keepsRings {n : Nat} {s t : State} (h : s.rests n t) : s.keepsRings t where
  freeBlocks := congrArg RingStore.freeBlocks h.ring
  spaces i := (h.calm i).rec (fun hc => .some ⟨hc.ringSize, hc.blockMap⟩) .none

theorem State.keepsRings.blocksOf {s t : State} (h : s.keepsRings t) (i : StreamId) : t.blocksOf i = s.blocksOf i := by
  have hspace := h.spaces i
  unfold State.blocksOf
  generalize s.opening i = x at hspace ⊢
  generalize t.opening i = y at hspace ⊢
  cases hspace with
  | none => rfl
  | some hsame => exact hsame.blockMap

theorem State.keepsRings.blocksOnce {s t : State} (h : s.keepsRings t) (hs : s.blocksOnce) : t.blocksOnce := by
  unfold State.blocksOnce State.allBlocks at *
  rwa [h.freeBlocks, funext h.blocksOf]

theorem State.keepsRings.ringsShaped {s t : State} (h : s.keepsRings t) (hs : s.ringsShaped) : t.ringsShaped := by
  intro i p hp
  have hspace := h.spaces i
  rw [hp] at hspace
  generalize hx : s.opening i = x at hspace
  cases hspace with
  | some hsame =>
    obtain ⟨hsize, hlength⟩ := hs i _ hx
    unfold Opening.shapeOk
    rw [hsame.ringSize, hsame.blockMap]
    exact ⟨hsize, hlength⟩

/-! ## Blocks given and taken -/

/-- The blocks of every stream but one. -/
def State.otherBlocks (s : State) (i : StreamId) : List BlockId := (allStreams.erase i).flatMap s.blocksOf

/-- All blocks: the free ones, those of one stream, and those of the others. -/
theorem State.allBlocks_perm (s : State) (i : StreamId) :
    s.allBlocks.Perm (s.ring.freeBlocks ++ (s.blocksOf i ++ s.otherBlocks i)) :=
  (((List.perm_cons_erase (mem_allStreams i)).flatMap_right s.blocksOf).trans (by rw [List.flatMap_cons]; rfl)).append_left _

theorem State.otherBlocks_congr {s t : State} {i : StreamId} (h : ∀ j, j ≠ i → t.opening j = s.opening j) :
    t.otherBlocks i = s.otherBlocks i := by
  refine List.flatMap_congr fun j hj => ?_
  have hne : j ≠ i := ((List.nodup_finRange 64).mem_erase_iff.1 hj).1
  unfold State.blocksOf
  rw [h j hne]

/-- Blocks that only move between the free list and the map of one stream stand once each as before (R26). -/
theorem State.blocksOnce_of_moved {s t : State} {i : StreamId} (h : ∀ j, j ≠ i → t.opening j = s.opening j)
    (hmoved : (t.ring.freeBlocks ++ t.blocksOf i).Perm (s.ring.freeBlocks ++ s.blocksOf i)) (hs : s.blocksOnce) :
    t.blocksOnce := by
  have hperm : t.allBlocks.Perm s.allBlocks := by
    refine (t.allBlocks_perm i).trans (List.Perm.trans ?_ (s.allBlocks_perm i).symm)
    rw [State.otherBlocks_congr h, ← List.append_assoc, ← List.append_assoc]
    exact hmoved.append_right _
  intro b
  rw [hperm.count_eq]
  exact hs b

theorem State.blocksOf_of_closed {s : State} {i : StreamId} (h : s.opening i = none) : s.blocksOf i = [] := by
  unfold State.blocksOf
  rw [h]

theorem State.blocksOf_of_open {s : State} {i : StreamId} {o : Opening} (h : s.opening i = some o) :
    s.blocksOf i = o.blockMap := by
  unfold State.blocksOf
  rw [h]

theorem State.blocksOnce_closeStream {s : State} {i : StreamId} {o : Opening} (ho : s.opening i = some o) (drainEnded : Bool)
    (hs : s.blocksOnce) : (s.closeStream i drainEnded).blocksOnce := by
  refine State.blocksOnce_of_moved (fun j hj => State.opening_closeStream_ne ho drainEnded hj) ?_ hs
  have hclosed : (s.closeStream i drainEnded).opening i = none := by rw [State.opening_closeStream ho, if_pos rfl]
  obtain ⟨-, -, -, hfree, -⟩ := State.closeStream_closesTo ho drainEnded
  rw [hfree, State.blocksOf_of_closed hclosed, State.blocksOf_of_open ho, List.append_nil]

theorem State.blocksOnce_acceptOpen {s : State} {q : OpenRequest} {i : StreamId} (f : Frame) (h : s.openRefusal q i = none)
    (hs : s.blocksOnce) : (s.acceptOpen f q i).blocksOnce := by
  refine State.blocksOnce_of_moved (fun j hj => State.opening_acceptOpen_ne s f q hj) ?_ hs
  obtain ⟨-, hclosed, -, -⟩ := State.openRefusal_accepts h
  rw [State.blocksOf_of_closed hclosed, State.blocksOf_of_open (s.opening_acceptOpen_self f q i), State.freeBlocks_acceptOpen,
    List.append_nil]
  refine List.perm_append_comm.trans (List.Perm.of_eq ?_)
  exact List.take_append_drop ..

theorem State.blank.blocksOnce {s t : State} (h : s.blank t) : t.blocksOnce := by
  intro b
  have hnone : allStreams.flatMap t.blocksOf = [] :=
    List.flatMap_eq_nil_iff.2 fun i _ => State.blocksOf_of_closed (h.closed i)
  unfold State.allBlocks
  rw [hnone, List.append_nil, h.freeBlocks]
  exact List.count_eq_one_of_mem (List.nodup_finRange 256) (List.mem_finRange b)

/-! ## Shapes -/

/-- A record opened as the checks of R6 require has the shape of R23: its size is one of the five, and the free list had the
blocks. -/
theorem State.ringsShaped_acceptOpen {s : State} {q : OpenRequest} {i : StreamId} (f : Frame) (h : s.openRefusal q i = none)
    (hs : s.ringsShaped) : (s.acceptOpen f q i).ringsShaped := by
  intro j p hp
  by_cases hj : j = i
  · subst hj
    rw [State.opening_acceptOpen_self] at hp
    cases hp
    obtain ⟨hrange, -, -, hspace⟩ := State.openRefusal_accepts h
    obtain ⟨-, -, -, hsize, -⟩ := of_decide_eq_true hrange
    refine ⟨hsize, ?_⟩
    show (s.ring.freeBlocks.take (q.ringSize / 32)).length * 32 = q.ringSize
    rw [List.length_take_of_le hspace]
    omega
  · rw [State.opening_acceptOpen_ne _ _ _ hj] at hp
    exact hs j p hp

theorem State.ringsShaped_closeStream {s : State} {i : StreamId} {o : Opening} (ho : s.opening i = some o) (drainEnded : Bool)
    (hs : s.ringsShaped) : (s.closeStream i drainEnded).ringsShaped := by
  intro j p hp
  rw [State.opening_closeStream ho] at hp
  split at hp
  · cases hp
  · exact hs j p hp

theorem State.blank.ringsShaped {s t : State} (h : s.blank t) : t.ringsShaped := fun i p hp => by
  rw [h.closed i] at hp
  cases hp

/-! ## Every step -/

/-- A change that is no open, close or reset moves no block. -/
theorem State.changes.rings {n : Nat} {s t : State} (h : s.changes n t) :
    (s.blocksOnce → t.blocksOnce) ∧ (s.ringsShaped → t.ringsShaped) := by
  have hkept : ∀ {s t : State}, s.keepsRings t → (s.blocksOnce → t.blocksOnce) ∧ (s.ringsShaped → t.ringsShaped) :=
    fun hk => ⟨hk.blocksOnce, hk.ringsShaped⟩
  induction h with
  | rests rest => exact hkept rest.keepsRings
  | trans _ _ ihfirst ihsecond => exact ⟨ihsecond.1 ∘ ihfirst.1, ihsecond.2 ∘ ihfirst.2⟩
  | closes opened drainEnded =>
    exact ⟨State.blocksOnce_closeStream opened drainEnded, State.ringsShaped_closeStream opened drainEnded⟩
  | opens f accepted => exact ⟨State.blocksOnce_acceptOpen f accepted, State.ringsShaped_acceptOpen f accepted⟩
  | drains f opened => exact hkept ((State.rewrites_drains f opened).keepsRings ⟨rfl, rfl⟩ rfl)
  | restarts f start opened =>
    exact hkept ((State.rewrites_restarts f start opened).keepsRings ⟨rfl, rfl⟩ (RingStore.joinSweep_spec ..).2.2)
  | voids => exact hkept (State.keepsRings_of_opening (RingStore.voidedOne_freeBlocks ..) fun j => State.opening_withRing _ _ j)
  | finishes busy opened =>
    refine hkept ((State.rewrites_finishes opened).keepsRings ⟨rfl, rfl⟩ ?_)
    obtain ⟨-, -, hfree, -⟩ := RingStore.engineFree_spec _
    exact (congrArg RingStore.freeBlocks (State.ring_sweepDone ..)).trans hfree
  | refills opened swept refill =>
    exact hkept ((State.rewrites_refills _ _ opened).keepsRings ⟨refill.ringSize, refill.blockMap⟩ refill.freeBlocks)
  | marksSwap => exact hkept (State.keepsRings_of_opening rfl fun _ => rfl)
  | settlesSwap => exact hkept (State.keepsRings_of_opening rfl fun _ => rfl)
  | halts => exact hkept (State.keepsRings_of_opening rfl fun _ => rfl)
  | stops => exact hkept (State.keepsRings_of_opening rfl fun _ => rfl)
  | blanks blank => exact ⟨fun _ => blank.blocksOnce, fun _ => blank.ringsShaped⟩

/-- Settles O53: blocks only move between the free list and the map of a stream that opens or closes. -/
theorem everyStepKeepsBlocksOnce : Obligations.EveryStepKeepsBlocksOnce := by
  intro s t h
  exact ⟨step_keeps_of_changes (fun hc => hc.rings.1) (fun _ _ hs => hs) (fun _ hs => hs) h,
    step_keeps_of_changes (fun hc => hc.rings.2) (fun _ _ hs => hs) (fun _ hs => hs) h⟩

end Sys2Proof.Machine
end

section
/-! SUPPORT. The sweep queue with the stream under the engine at its head (R29 to R31, R34), change by change. -/

namespace Sys2Proof.Machine

/-! ## The line of the sweeps -/

/-- The streams in the sweep, the one the engine works on first (R29, R31). -/
def RingStore.sweepLine (r : RingStore) : List StreamId :=
  match r.engine with
  | .idle => r.sweepQueue
  | .busy i _ => i :: r.sweepQueue

theorem RingStore.sweepLine_idle {r : RingStore} (h : r.engine = .idle) : r.sweepLine = r.sweepQueue := by
  unfold RingStore.sweepLine
  rw [h]

theorem RingStore.sweepLine_busy {r : RingStore} {i : StreamId} {v : Nat} (h : r.engine = .busy i v) :
    r.sweepLine = i :: r.sweepQueue := by
  unfold RingStore.sweepLine
  rw [h]

theorem RingStore.sweeps_busy {r : RingStore} {i : StreamId} {v : Nat} (h : r.engine = .busy i v) (j : StreamId) :
    r.sweeps j ↔ j = i := by
  unfold RingStore.sweeps
  rw [h]
  constructor
  · rintro ⟨w, hw⟩
    cases hw
    rfl
  · rintro rfl
    exact ⟨v, rfl⟩

theorem RingStore.sweeps_idle {r : RingStore} (h : r.engine = .idle) (j : StreamId) : ¬ r.sweeps j := by
  rintro ⟨w, hw⟩
  rw [h] at hw
  cases hw

/-- The law of R29 and R31 for the line: it holds exactly the SWEEPING streams, once each; an idle engine leaves no queue. -/
theorem State.sweepsOk_iff (s : State) : s.sweepsOk ↔
    s.ring.sweepLine.Nodup ∧ (∀ i, i ∈ s.ring.sweepLine ↔ s.isSweeping i) ∧
      (s.ring.engine = .idle → s.ring.sweepQueue = []) := by
  unfold State.sweepsOk
  cases he : s.ring.engine with
  | idle => simp only [RingStore.sweepLine_idle he, RingStore.sweeps_idle he, not_false_iff, and_true, false_imp_iff,
      implies_true, true_and]
  | busy j v =>
    simp only [RingStore.sweepLine_busy he, RingStore.sweeps_busy he, List.nodup_cons, List.mem_cons, reduceCtorEq,
      false_imp_iff, and_true]
    constructor
    · rintro ⟨hnodup, hqueue, hengine⟩
      refine ⟨⟨fun hj => ((hqueue j).1 hj).2 rfl, hnodup⟩, fun i => ⟨?_, fun hi => ?_⟩⟩
      · rintro (rfl | hi)
        · exact hengine i rfl
        · exact ((hqueue i).1 hi).1
      · by_cases hij : i = j
        · exact .inl hij
        · exact .inr ((hqueue i).2 ⟨hi, hij⟩)
    · rintro ⟨⟨hj, hnodup⟩, hline⟩
      refine ⟨hnodup, fun i => ⟨fun hi => ⟨(hline i).1 (.inr hi), ?_⟩, fun hi => ((hline i).2 hi.1).resolve_left hi.2⟩,
        fun i hi => (hline i).1 (.inl hi)⟩
      rintro rfl
      exact hj hi

/-- A stream that joins stands at the end of the line (R30, R31). -/
theorem RingStore.sweepLine_joinSweep {r : RingStore} (h : r.engine = .idle → r.sweepQueue = []) (i : StreamId) :
    (r.joinSweep i).sweepLine = r.sweepLine ++ [i] ∧ (r.joinSweep i).engine ≠ .idle := by
  rw [RingStore.joinSweep_eq]
  cases he : r.engine with
  | idle => simp [RingStore.sweepLine, he, h he]
  | busy j v => simp [RingStore.sweepLine, he]

/-- The free engine takes the head of the queue: the line is the queue (R31). -/
theorem RingStore.sweepLine_engineFree (r : RingStore) :
    r.engineFree.sweepLine = r.sweepQueue ∧ (r.engineFree.engine = .idle → r.engineFree.sweepQueue = []) := by
  obtain ⟨-, -, -, hqueue, hengine⟩ := r.engineFree_spec
  cases hq : r.sweepQueue with
  | nil =>
    simp only [hq] at hqueue hengine
    exact ⟨(RingStore.sweepLine_idle hengine).trans hqueue, fun _ => hqueue⟩
  | cons j rest =>
    simp only [hq] at hqueue hengine
    refine ⟨(RingStore.sweepLine_busy hengine).trans (by rw [hqueue]; rfl), fun hidle => ?_⟩
    rw [hengine] at hidle
    cases hidle

/-- A stream that leaves is taken out of the line (R34). -/
theorem RingStore.sweepLine_leaveSweep {r : RingStore} (h : r.engine = .idle → r.sweepQueue = []) (i : StreamId) :
    (r.leaveSweep i).sweepLine = r.sweepLine.erase i ∧
      ((r.leaveSweep i).engine = .idle → (r.leaveSweep i).sweepQueue = []) := by
  unfold RingStore.leaveSweep
  cases he : r.engine with
  | idle =>
    simp only [RingStore.sweepLine, he, h he]
    exact ⟨trivial, fun _ => rfl⟩
  | busy j v =>
    by_cases hj : j = i
    · subst hj
      simp only [if_true, RingStore.sweepLine_busy he, List.erase_cons_head]
      exact r.sweepLine_engineFree
    · simp only [if_neg hj]
      refine ⟨?_, fun hidle => ?_⟩
      · simp only [RingStore.sweepLine, he]
        rw [List.erase_cons_tail (by simpa using hj)]
      · cases hidle

/-! ## Streams that begin and end their sweep -/

/-- The line and the SWEEPING streams as they were. -/
theorem State.sweepsOk_congr {s t : State} (hline : t.ring.sweepLine = s.ring.sweepLine)
    (hidle : t.ring.engine = .idle → s.ring.engine = .idle) (hqueue : t.ring.sweepQueue = s.ring.sweepQueue)
    (hsweep : ∀ i, t.isSweeping i ↔ s.isSweeping i) (hs : s.sweepsOk) : t.sweepsOk := by
  obtain ⟨hnodup, hmem, hempty⟩ := s.sweepsOk_iff.1 hs
  refine t.sweepsOk_iff.2 ⟨by rwa [hline], fun i => ?_, fun h => hqueue.trans (hempty (hidle h))⟩
  rw [hline, hsweep, hmem]

/-- One stream more is SWEEPING, at the end of the line. -/
theorem State.sweepsOk_join {s t : State} {i : StreamId} (hring : t.ring.sweepLine = s.ring.sweepLine ++ [i])
    (hbusy : t.ring.engine ≠ .idle) (hnew : ¬ s.isSweeping i) (hi : t.isSweeping i)
    (hsweep : ∀ j, j ≠ i → (t.isSweeping j ↔ s.isSweeping j)) (hs : s.sweepsOk) : t.sweepsOk := by
  obtain ⟨hnodup, hmem, -⟩ := s.sweepsOk_iff.1 hs
  refine t.sweepsOk_iff.2 ⟨?_, fun j => ?_, fun h => absurd h hbusy⟩
  · rw [hring]
    refine List.Nodup.append hnodup (List.nodup_singleton i) ?_
    rw [List.disjoint_singleton]
    exact fun hmem' => hnew ((hmem i).1 hmem')
  · rw [hring, List.mem_append, List.mem_singleton, hmem]
    by_cases hj : j = i
    · exact iff_of_true (.inr hj) (hj ▸ hi)
    · rw [hsweep j hj, or_iff_left hj]

/-- One stream is SWEEPING no longer, and out of the line. -/
theorem State.sweepsOk_leave {s t : State} {i : StreamId} (hring : t.ring.sweepLine = s.ring.sweepLine.erase i)
    (hidle : t.ring.engine = .idle → t.ring.sweepQueue = []) (hi : ¬ t.isSweeping i)
    (hsweep : ∀ j, j ≠ i → (t.isSweeping j ↔ s.isSweeping j)) (hs : s.sweepsOk) : t.sweepsOk := by
  obtain ⟨hnodup, hmem, -⟩ := s.sweepsOk_iff.1 hs
  refine t.sweepsOk_iff.2 ⟨?_, fun j => ?_, hidle⟩
  · rw [hring]
    exact hnodup.erase i
  · rw [hring, hnodup.mem_erase_iff, hmem]
    by_cases hj : j = i
    · exact iff_of_false (fun h => h.1 hj) (hj ▸ hi)
    · rw [hsweep j hj, and_iff_right hj]

/-! ## The phases that defer -/

theorem Phase.deferred_sweeping {x : Phase} : x.deferred = some .sweeping ↔ x = .sweeping := by
  cases x <;> simp [Phase.deferred]

theorem Phase.deferred_draining {x : Phase} : x.deferred = some .draining ↔ x = .draining := by
  cases x <;> simp [Phase.deferred]

theorem State.isSweeping_iff {s : State} {i : StreamId} : s.isSweeping i ↔ s.waitsIn i = some .sweeping := by
  unfold State.isSweeping State.waitsIn
  cases s.opening i with
  | none => simp
  | some o => simp [Phase.deferred_sweeping]

theorem State.waitsIn_congr {s t : State} {i : StreamId} (h : t.opening i = s.opening i) : t.waitsIn i = s.waitsIn i := by
  unfold State.waitsIn
  rw [h]

theorem State.waitsIn_of_open {s : State} {i : StreamId} {o : Opening} (h : s.opening i = some o) :
    s.waitsIn i = o.phase.deferred := by
  unfold State.waitsIn
  rw [h]
  rfl

theorem State.waitsIn_of_closed {s : State} {i : StreamId} (h : s.opening i = none) : s.waitsIn i = none := by
  unfold State.waitsIn
  rw [h]
  rfl

theorem State.rests.waitsIn {n : Nat} {s t : State} (h : s.rests n t) (i : StreamId) : t.waitsIn i = s.waitsIn i := by
  have hcalm := h.calm i
  unfold State.waitsIn
  generalize s.opening i = x at hcalm ⊢
  generalize t.opening i = y at hcalm ⊢
  cases hcalm with
  | none => rfl
  | some hc => exact hc.deferred

theorem State.isSweeping_congr {s t : State} {i : StreamId} (h : t.waitsIn i = s.waitsIn i) :
    t.isSweeping i ↔ s.isSweeping i := by
  rw [State.isSweeping_iff, State.isSweeping_iff, h]

theorem State.rewrites.waitsIn_ne {s t : State} {i : StreamId} {o p : Opening} (h : s.rewrites t i o p) {j : StreamId}
    (hj : j ≠ i) : t.waitsIn j = s.waitsIn j := State.waitsIn_congr (h.others j hj)

/-- A record rewritten without entering or leaving a deferring phase. -/
theorem State.rewrites.waitsIn_calm {s t : State} {i : StreamId} {o p : Opening} (h : s.rewrites t i o p)
    (hp : p.phase.deferred = o.phase.deferred) (j : StreamId) : t.waitsIn j = s.waitsIn j := by
  by_cases hj : j = i
  · rw [hj, State.waitsIn_of_open h.after, State.waitsIn_of_open h.before, hp]
  · exact h.waitsIn_ne hj

theorem State.isSweeping_of_open {s : State} {i : StreamId} {o : Opening} (h : s.opening i = some o) :
    s.isSweeping i ↔ o.phase = .sweeping := by
  rw [State.isSweeping_iff, State.waitsIn_of_open h, Phase.deferred_sweeping]

theorem State.not_isSweeping_of_closed {s : State} {i : StreamId} (h : s.opening i = none) : ¬ s.isSweeping i := by
  rw [State.isSweeping_iff, State.waitsIn_of_closed h]
  nofun

/-! ## Every step -/

theorem State.ring_closeStream {s : State} {i : StreamId} {o : Opening} (ho : s.opening i = some o) (drainEnded : Bool) :
    (s.closeStream i drainEnded).ring = (s.ring.giveBack o.blockMap).leaveSweep i := by
  obtain ⟨-, -, -, -, -, -, hring, -⟩ := State.closeCollection_spec
    (((s.withOpening i none).withRing ((s.ring.giveBack o.blockMap).leaveSweep i)).withNotices i {}) i
  unfold State.closeStream State.answerClosing
  simp only [ho]
  rw [State.withReq_ring, hring]
  rfl

theorem State.sweepsOk_closeStream {s : State} {i : StreamId} {o : Opening} (ho : s.opening i = some o) (drainEnded : Bool)
    (hs : s.sweepsOk) : (s.closeStream i drainEnded).sweepsOk := by
  obtain ⟨-, -, hempty⟩ := s.sweepsOk_iff.1 hs
  obtain ⟨hline, hidle⟩ := RingStore.sweepLine_leaveSweep (r := s.ring.giveBack o.blockMap) hempty i
  rw [← State.ring_closeStream ho drainEnded] at hline hidle
  refine State.sweepsOk_leave hline hidle (State.not_isSweeping_of_closed ?_)
    (fun j hj => State.isSweeping_congr (State.waitsIn_congr (State.opening_closeStream_ne ho drainEnded hj))) hs
  rw [State.opening_closeStream ho, if_pos rfl]

theorem State.sweepsOk_acceptOpen {s : State} {q : OpenRequest} {i : StreamId} (f : Frame) (h : s.openRefusal q i = none)
    (hs : s.sweepsOk) : (s.acceptOpen f q i).sweepsOk := by
  obtain ⟨-, hclosed, -, -⟩ := State.openRefusal_accepts h
  obtain ⟨-, -, hempty⟩ := s.sweepsOk_iff.1 hs
  obtain ⟨hline, hbusy⟩ := RingStore.sweepLine_joinSweep (r := s.ring.dropHead (q.ringSize / 32)) hempty i
  rw [← State.ring_acceptOpen s f] at hline hbusy
  exact State.sweepsOk_join hline hbusy (State.not_isSweeping_of_closed hclosed)
    ((State.isSweeping_of_open (s.opening_acceptOpen_self f q i)).2 rfl)
    (fun j hj => State.isSweeping_congr (State.waitsIn_congr (State.opening_acceptOpen_ne s f q hj))) hs

theorem State.blank.sweepsOk {s t : State} (h : s.blank t) : t.sweepsOk := by
  refine t.sweepsOk_iff.2 ?_
  rw [RingStore.sweepLine_idle h.engine, h.sweepQueue]
  exact ⟨List.nodup_nil, fun i => iff_of_false List.not_mem_nil (State.not_isSweeping_of_closed (h.closed i)), fun _ => rfl⟩

theorem State.changes.sweepsOk {n : Nat} {s t : State} (h : s.changes n t) (hs : s.sweepsOk) : t.sweepsOk := by
  induction h with
  | rests rest =>
    exact State.sweepsOk_congr (by rw [rest.ring]) (by rw [rest.ring]; exact id) (by rw [rest.ring])
      (fun i => State.isSweeping_congr (rest.waitsIn i)) hs
  | trans _ _ ihfirst ihsecond => exact ihsecond (ihfirst hs)
  | closes opened drainEnded => exact State.sweepsOk_closeStream opened drainEnded hs
  | opens f accepted => exact State.sweepsOk_acceptOpen f accepted hs
  | @drains s i o f opened plays =>
    have hrewrites := State.rewrites_drains f opened
    have hold := State.isSweeping_of_open opened
    have hnew := State.isSweeping_of_open hrewrites.after
    refine State.sweepsOk_congr (s := s) rfl id rfl (fun j => ?_) hs
    by_cases hj : j = i
    · rw [hj, hold, hnew, plays]
      exact iff_of_false nofun nofun
    · exact State.isSweeping_congr (hrewrites.waitsIn_ne hj)
  | restarts f start opened settled =>
    have hrewrites := State.rewrites_restarts f start opened
    obtain ⟨-, -, hempty⟩ := (State.sweepsOk_iff _).1 hs
    obtain ⟨hline, hbusy⟩ := RingStore.sweepLine_joinSweep hempty _
    refine State.sweepsOk_join hline hbusy ?_ ((State.isSweeping_of_open hrewrites.after).2 rfl)
      (fun j hj => State.isSweeping_congr (hrewrites.waitsIn_ne hj)) hs
    rw [State.isSweeping_iff, State.waitsIn_of_open opened, settled]
    nofun
  | @voids s i v o b busy opened next =>
    have hqueue : (s.ring.voidedOne i v b).sweepQueue = s.ring.sweepQueue := by
      simp only [RingStore.voidedOne, RingStore.voidBlock_sweepQueue]
    have hengine : (s.ring.voidedOne i v b).engine = .busy i (v + 1) := by simp only [RingStore.voidedOne]
    refine State.sweepsOk_congr ?_ ?_ hqueue (fun j => State.isSweeping_congr (State.waitsIn_congr (State.opening_withRing ..))) hs
    · rw [State.withRing_ring, RingStore.sweepLine_busy hengine, RingStore.sweepLine_busy busy, hqueue]
    · rw [State.withRing_ring, hengine]
      nofun
  | @finishes s i o busy opened =>
    have hrewrites := State.rewrites_finishes opened
    obtain ⟨hline, hidle⟩ := s.ring.sweepLine_engineFree
    refine State.sweepsOk_leave ?_ ?_ ?_ (fun j hj => State.isSweeping_congr (hrewrites.waitsIn_ne hj)) hs
    · rw [State.ring_sweepDone, hline, RingStore.sweepLine_busy busy, List.erase_cons_head]
    · rw [State.ring_sweepDone]
      exact hidle
    · rw [State.isSweeping_of_open hrewrites.after]
      nofun
  | @refills s i o p r opened swept refill =>
    have hrewrites := State.rewrites_refills r p opened
    have hline : r.sweepLine = s.ring.sweepLine := by
      unfold RingStore.sweepLine
      rw [refill.engine, refill.sweepQueue]
    exact State.sweepsOk_congr hline (fun h => refill.engine.symm.trans h) refill.sweepQueue
      (fun j => State.isSweeping_congr (hrewrites.waitsIn_calm (congrArg Phase.deferred refill.phase) j)) hs
  | marksSwap => exact hs
  | settlesSwap => exact hs
  | halts => exact hs
  | stops => exact hs
  | blanks blank => exact blank.sweepsOk

/-- Settles O55: a stream joins the line where it becomes SWEEPING and leaves it where it is so no longer. -/
theorem everyStepKeepsSweepQueue : Obligations.EveryStepKeepsSweepQueue := by
  intro s t h
  exact step_keeps_of_changes (fun hc => hc.sweepsOk) (fun _ _ hs => hs) (fun _ hs => hs) h

end Sys2Proof.Machine
end

section
/-! SUPPORT. The pending reply table (R33, R148): one entry for each object that waits, change by change. -/

namespace Sys2Proof.Machine

/-! ## Objects -/

/-- What an entry is about: a stream, the pending swap or the deferred HALT. -/
abbrev EntryObject := StreamId ⊕ Bool

abbrev EntryObject.stream (i : StreamId) : EntryObject := .inl i
abbrev EntryObject.swap : EntryObject := .inr false
abbrev EntryObject.halt : EntryObject := .inr true

def PendingJob.object : PendingJob → EntryObject
  | .openOf i => .stream i
  | .resumeOf i => .stream i
  | .closeOf i => .stream i
  | .swap => .swap
  | .halt => .halt

/-- The entry is about the object. -/
def PendingEntry.isOn (x : EntryObject) (e : PendingEntry) : Bool := decide (e.job.object = x)

theorem PendingEntry.isOn_iff {x : EntryObject} {e : PendingEntry} : e.isOn x = true ↔ e.job.object = x := decide_eq_true_iff

theorem PendingEntry.isOn_stream (i : StreamId) : PendingEntry.isOn (.stream i) = fun e => decide (e.job.stream = some i) := by
  funext e
  unfold PendingEntry.isOn
  cases e.job <;> simp [PendingJob.object, PendingJob.stream]

theorem PendingEntry.isOn_swap : PendingEntry.isOn .swap = fun e => decide (e.job = .swap) := by
  funext e
  unfold PendingEntry.isOn
  cases e.job <;> simp [PendingJob.object]

theorem PendingEntry.isOn_halt : PendingEntry.isOn .halt = fun e => decide (e.job = .halt) := by
  funext e
  unfold PendingEntry.isOn
  cases e.job <;> simp [PendingJob.object]

/-- An entry waits for the object: a stream in a deferring phase, a pending swap, or a bus that is HALTING (R148). -/
def State.awaitsOn (s : State) : EntryObject → Prop
  | .inl i => s.waitsIn i ≠ none
  | .inr false => s.plans.swapPending = true
  | .inr true => s.bus.state = .halting

/-- Two states have the same to wait for on the object. -/
def State.agreesOn (s t : State) : EntryObject → Prop
  | .inl i => t.waitsIn i = s.waitsIn i
  | .inr false => t.plans.swapPending = s.plans.swapPending
  | .inr true => t.bus.state = .halting ↔ s.bus.state = .halting

theorem State.awaits_iff {s : State} {i : StreamId} : s.awaits i ↔ s.awaitsOn (.stream i) := by
  constructor
  · rintro ⟨o, ho, hp⟩
    show s.waitsIn i ≠ none
    rw [State.waitsIn_of_open ho]
    rcases hp with hp | hp <;> simp [hp, Phase.deferred]
  · intro h
    cases ho : s.opening i with
    | none => exact absurd (State.waitsIn_of_closed ho) h
    | some o =>
      refine ⟨o, ho, ?_⟩
      by_contra hsettled
      exact h ((State.waitsIn_of_open ho).trans (Phase.deferred_eq_none hsettled))

theorem State.jobFits_open {s : State} {i : StreamId} : s.jobFits (.openOf i) ↔ s.waitsIn i = some .sweeping :=
  State.isSweeping_iff

theorem State.jobFits_resume {s : State} {i : StreamId} : s.jobFits (.resumeOf i) ↔ s.waitsIn i = some .sweeping :=
  State.isSweeping_iff

theorem State.jobFits_close {s : State} {i : StreamId} : s.jobFits (.closeOf i) ↔ s.waitsIn i = some .draining := by
  constructor
  · rintro ⟨o, ho, hp⟩
    rw [State.waitsIn_of_open ho, Phase.deferred_draining, hp]
  · intro h
    cases ho : s.opening i with
    | none => exact absurd (h.symm.trans (State.waitsIn_of_closed ho)) nofun
    | some o => exact ⟨o, ho, Phase.deferred_draining.1 ((State.waitsIn_of_open ho).symm.trans h)⟩

/-- An entry that fits is waited for. -/
theorem State.awaitsOn_of_jobFits {s : State} {j : PendingJob} (h : s.jobFits j) : s.awaitsOn j.object := by
  have hne : ∀ {i : StreamId} {x : Phase}, s.waitsIn i = some x → s.waitsIn i ≠ none := fun h => by simp [h]
  cases j with
  | openOf i => exact hne (State.jobFits_open.1 h)
  | resumeOf i => exact hne (State.jobFits_resume.1 h)
  | closeOf i => exact hne (State.jobFits_close.1 h)
  | swap => exact h
  | halt => exact h

theorem State.awaitsOn_of_mem {s : State} (h : ∀ e ∈ s.req.pendingTable, s.jobFits e.job) {x : EntryObject} {e : PendingEntry}
    (he : e ∈ s.req.pendingTable) (hon : e.isOn x = true) : s.awaitsOn x := by
  rw [← PendingEntry.isOn_iff.1 hon]
  exact State.awaitsOn_of_jobFits (h e he)

theorem State.agreesOn.jobFits {s t : State} {j : PendingJob} (h : s.agreesOn t j.object) : t.jobFits j ↔ s.jobFits j := by
  cases j with
  | openOf i => rw [State.jobFits_open, State.jobFits_open, show t.waitsIn i = s.waitsIn i from h]
  | resumeOf i => rw [State.jobFits_resume, State.jobFits_resume, show t.waitsIn i = s.waitsIn i from h]
  | closeOf i => rw [State.jobFits_close, State.jobFits_close, show t.waitsIn i = s.waitsIn i from h]
  | swap => exact Eq.congr_left h
  | halt => exact h

theorem State.agreesOn.awaitsOn {s t : State} {x : EntryObject} (h : s.agreesOn t x) : t.awaitsOn x ↔ s.awaitsOn x := by
  rcases x with i | _ | _
  · exact not_congr (Eq.congr_left h)
  · exact Eq.congr_left h
  · exact h

/-! ## The law of the table -/

/-- R148, object by object: every entry fits, and an object waited for has one entry. -/
theorem State.pendingOk_iff (s : State) : s.pendingOk ↔
    (∀ e ∈ s.req.pendingTable, s.jobFits e.job) ∧ ∀ x, s.awaitsOn x → s.req.pendingTable.countP (PendingEntry.isOn x) = 1 := by
  have hnone : (∀ e ∈ s.req.pendingTable, s.jobFits e.job) → ∀ {x}, ¬ s.awaitsOn x →
      s.req.pendingTable.countP (PendingEntry.isOn x) = 0 := fun hfits x hx =>
    List.countP_eq_zero.2 fun e he hon => hx (State.awaitsOn_of_mem hfits he hon)
  unfold State.pendingOk
  rw [← PendingEntry.isOn_swap, ← PendingEntry.isOn_halt]
  refine and_congr_right fun hfits => ⟨fun ⟨hstreams, hswap, hhalt⟩ x hx => ?_, fun h => ⟨fun i hi => ?_, ?_, ?_⟩⟩
  · rcases x with i | _ | _
    · rw [← hstreams i (State.awaits_iff.2 hx), ← PendingEntry.isOn_stream]
    · exact hswap.trans (if_pos hx)
    · exact hhalt.trans (if_pos hx)
  · rw [← PendingEntry.isOn_stream]
    exact h _ (State.awaits_iff.1 hi)
  · split
    · next hmark => exact h .swap hmark
    · next hmark => exact hnone hfits (x := .swap) hmark
  · split
    · next hhalting => exact h .halt hhalting
    · next hhalting => exact hnone hfits (x := .halt) hhalting

theorem countP_eraseP_self {α : Type} (p : α → Bool) (l : List α) : (l.eraseP p).countP p = l.countP p - 1 := by
  induction l with
  | nil => rfl
  | cons a l ih =>
    cases hp : p a with
    | true => simp [hp]
    | false => simp [hp, ih]

theorem countP_eraseP_of_disjoint {α : Type} {p q : α → Bool} (h : ∀ a, q a = true → p a = false) (l : List α) :
    (l.eraseP p).countP q = l.countP q := by
  induction l with
  | nil => rfl
  | cons a l ih =>
    cases hp : p a with
    | true =>
      have hq : q a = false := by
        rw [← Bool.not_eq_true]
        exact fun hq => absurd (hp.symm.trans (h a hq)) (by decide)
      simp [hp, hq]
    | false => simp [hp, List.countP_cons, ih]

/-- Objects of two kinds have no entry in common. -/
theorem PendingEntry.isOn_disjoint {x y : EntryObject} (h : y ≠ x) (e : PendingEntry) (he : e.isOn y = true) :
    e.isOn x = false := by
  rw [← Bool.not_eq_true]
  exact fun hx => h ((PendingEntry.isOn_iff.1 he).symm.trans (PendingEntry.isOn_iff.1 hx))

/-- The same table, with the same to wait for. -/
theorem State.pendingOk_congr {s t : State} (ht : t.req.pendingTable = s.req.pendingTable) (h : ∀ x, s.agreesOn t x)
    (hs : s.pendingOk) : t.pendingOk := by
  obtain ⟨hfits, hone⟩ := s.pendingOk_iff.1 hs
  refine t.pendingOk_iff.2 ⟨fun e he => (h _).jobFits.2 (hfits e (ht ▸ he)), fun x hx => ?_⟩
  rw [ht]
  exact hone x ((h x).awaitsOn.1 hx)

/-- An entry joins for an object that was not waited for. -/
theorem State.pendingOk_enter {s t : State} {e : PendingEntry} (ht : t.req.pendingTable = s.req.pendingTable ++ [e])
    (hnew : ¬ s.awaitsOn e.job.object) (hfit : t.jobFits e.job) (h : ∀ x, x ≠ e.job.object → s.agreesOn t x)
    (hs : s.pendingOk) : t.pendingOk := by
  obtain ⟨hfits, hone⟩ := s.pendingOk_iff.1 hs
  have hother : ∀ e' ∈ s.req.pendingTable, e'.job.object ≠ e.job.object := fun e' he' he =>
    hnew (he ▸ State.awaitsOn_of_jobFits (hfits e' he'))
  refine t.pendingOk_iff.2 ⟨fun e' he' => ?_, fun x hx => ?_⟩
  · rw [ht, List.mem_append, List.mem_singleton] at he'
    rcases he' with he' | rfl
    · exact (h _ (hother e' he')).jobFits.2 (hfits e' he')
    · exact hfit
  · rw [ht, List.countP_append, List.countP_singleton]
    by_cases hxe : x = e.job.object
    · have hzero : s.req.pendingTable.countP (PendingEntry.isOn x) = 0 :=
        List.countP_eq_zero.2 fun e' he' hon => hother e' he' ((PendingEntry.isOn_iff.1 hon).trans hxe)
      rw [hzero, if_pos (PendingEntry.isOn_iff.2 hxe.symm)]
    · rw [hone x ((h x hxe).awaitsOn.1 hx), if_neg fun hon => hxe (PendingEntry.isOn_iff.1 hon).symm]

/-- The entry of an object that is waited for no longer leaves. -/
theorem State.pendingOk_leave {s t : State} (x : EntryObject)
    (ht : t.req.pendingTable = s.req.pendingTable.eraseP (PendingEntry.isOn x)) (hdone : ¬ t.awaitsOn x)
    (h : ∀ y, y ≠ x → s.agreesOn t y) (hs : s.pendingOk) : t.pendingOk := by
  obtain ⟨hfits, hone⟩ := s.pendingOk_iff.1 hs
  have hzero : t.req.pendingTable.countP (PendingEntry.isOn x) = 0 := by
    rw [ht, countP_eraseP_self]
    by_cases hx : s.awaitsOn x
    · rw [hone x hx]
    · rw [List.countP_eq_zero.2 fun e he hon => hx (State.awaitsOn_of_mem hfits he hon)]
  refine t.pendingOk_iff.2 ⟨fun e he => ?_, fun y hy => ?_⟩
  · have hne : e.job.object ≠ x := fun hex => List.countP_eq_zero.1 hzero e he (PendingEntry.isOn_iff.2 hex)
    rw [ht] at he
    exact (h _ hne).jobFits.2 (hfits e (List.mem_of_mem_eraseP he))
  · have hyx : y ≠ x := fun hyx => hdone (hyx ▸ hy)
    rw [ht, countP_eraseP_of_disjoint (PendingEntry.isOn_disjoint hyx), hone y ((h y hyx).awaitsOn.1 hy)]

/-! ## What the changes leave to wait for -/

/-- A stream's phase apart, everything waits as before. -/
theorem State.agreesOn_of_stream {s t : State} {i : StreamId} (hstreams : ∀ j, j ≠ i → t.waitsIn j = s.waitsIn j)
    (hmark : t.plans.swapPending = s.plans.swapPending) (hbus : t.bus.state = s.bus.state) (x : EntryObject)
    (hx : x ≠ .stream i) : s.agreesOn t x := by
  rcases x with j | _ | _
  · exact hstreams j fun hj => hx (congrArg EntryObject.stream hj)
  · exact hmark
  · exact Eq.congr_left hbus

/-- Streams, swap mark and HALTING as before. -/
theorem State.agreesOn_of_same {s t : State} (hstreams : ∀ j, t.waitsIn j = s.waitsIn j)
    (hmark : t.plans.swapPending = s.plans.swapPending) (hbus : t.bus.state = .halting ↔ s.bus.state = .halting)
    (x : EntryObject) : s.agreesOn t x := by
  rcases x with j | _ | _
  · exact hstreams j
  · exact hmark
  · exact hbus

theorem RequestUnit.answer_table (u : RequestUnit) (p : PendingEntry → Bool) (reply : PendingEntry → Reply) :
    (u.answer p reply).pendingTable = u.pendingTable.eraseP p := by
  rw [RequestUnit.answer_eq]

theorem State.table_sweepDone (s : State) (i : StreamId) (o : Opening) :
    (s.sweepDone i o).req.pendingTable = s.req.pendingTable.eraseP (PendingEntry.isOn (.stream i)) := by
  rw [PendingEntry.isOn_stream]
  exact RequestUnit.answer_table ..

theorem State.pendingOk_closeStream {s : State} {i : StreamId} {o : Opening} (ho : s.opening i = some o) (drainEnded : Bool)
    (hs : s.pendingOk) : (s.closeStream i drainEnded).pendingOk := by
  obtain ⟨-, -, -, -, -, -, -, -, -, -, -, -, htable, -, hplans, hbus, -⟩ := State.closeStream_closesTo ho drainEnded
  refine State.pendingOk_leave (.stream i) (htable.trans (by rw [PendingEntry.isOn_stream]; rfl)) (fun hw => hw ?_)
    (State.agreesOn_of_stream (fun j hj => State.waitsIn_congr (State.opening_closeStream_ne ho drainEnded hj))
      (congrArg PlanStore.swapPending hplans) (congrArg CycleEngine.state hbus)) hs
  exact State.waitsIn_of_closed (by rw [State.opening_closeStream ho, if_pos rfl])

theorem State.pendingOk_acceptOpen {s : State} {q : OpenRequest} {i : StreamId} (f : Frame) (h : s.openRefusal q i = none)
    (hs : s.pendingOk) : (s.acceptOpen f q i).pendingOk := by
  obtain ⟨-, hclosed, -, -⟩ := State.openRefusal_accepts h
  have hopened := s.opening_acceptOpen_self f q i
  refine State.pendingOk_enter (s := s) (e := { tag := tagOf f, job := .openOf i }) rfl
    (fun hw => hw (State.waitsIn_of_closed hclosed)) (State.jobFits_open.2 ?_)
    (State.agreesOn_of_stream (fun j hj => State.waitsIn_congr (State.opening_acceptOpen_ne s f q hj)) rfl rfl) hs
  rw [State.waitsIn_of_open hopened]
  rfl

theorem State.blank.pendingOk {s t : State} (h : s.blank t) : t.pendingOk := by
  refine t.pendingOk_iff.2 ?_
  rw [h.table]
  refine ⟨nofun, fun x hx => absurd hx ?_⟩
  rcases x with i | _ | _
  · exact not_not.2 (State.waitsIn_of_closed (h.closed i))
  · exact fun hmark => absurd (h.mark.symm.trans hmark) (by decide)
  · exact fun hhalting => absurd (h.stopped.symm.trans hhalting) (by decide)

theorem State.changes.pendingOk {n : Nat} {s t : State} (h : s.changes n t) (hs : s.pendingOk) : t.pendingOk := by
  induction h with
  | rests rest => exact State.pendingOk_congr rest.table (State.agreesOn_of_same rest.waitsIn rest.mark rest.halting) hs
  | trans _ _ ihfirst ihsecond => exact ihsecond (ihfirst hs)
  | closes opened drainEnded => exact State.pendingOk_closeStream opened drainEnded hs
  | opens f accepted => exact State.pendingOk_acceptOpen f accepted hs
  | @drains s i o f opened plays =>
    have hrewrites := State.rewrites_drains f opened
    refine State.pendingOk_enter (s := s) (e := { tag := tagOf f, job := .closeOf i }) rfl (fun hw => hw ?_)
      (State.jobFits_close.2 (State.waitsIn_of_open hrewrites.after))
      (State.agreesOn_of_stream (fun j hj => hrewrites.waitsIn_ne hj) rfl rfl) hs
    rw [State.waitsIn_of_open opened, plays]
    rfl
  | @restarts s i o f start opened settled =>
    have hrewrites := State.rewrites_restarts f start opened
    exact State.pendingOk_enter (s := s) (e := { tag := tagOf f, job := .resumeOf i }) rfl
      (fun hw => hw ((State.waitsIn_of_open opened).trans settled))
      (State.jobFits_resume.2 (State.waitsIn_of_open hrewrites.after))
      (State.agreesOn_of_stream (fun j hj => hrewrites.waitsIn_ne hj) rfl rfl) hs
  | voids =>
    refine State.pendingOk_congr (congrArg RequestUnit.pendingTable (State.withRing_req ..)) (State.agreesOn_of_same
      (fun j => State.waitsIn_congr (State.opening_withRing ..)) ?_ ?_) hs
    · rw [State.withRing_plans]
    · rw [State.withRing_bus]
  | @finishes s i o busy opened =>
    have hrewrites := State.rewrites_finishes opened
    exact State.pendingOk_leave (.stream i) (s.table_sweepDone i o) (fun hw => hw (State.waitsIn_of_open hrewrites.after))
      (State.agreesOn_of_stream (fun j hj => hrewrites.waitsIn_ne hj) rfl rfl) hs
  | @refills s i o p r opened swept refill =>
    have hrewrites := State.rewrites_refills r p opened
    exact State.pendingOk_congr (s := s) rfl (State.agreesOn_of_same
      (hrewrites.waitsIn_calm (congrArg Phase.deferred refill.phase)) rfl Iff.rfl) hs
  | @marksSwap s f idle =>
    refine State.pendingOk_enter (s := s) (e := { tag := tagOf f, job := .swap }) rfl
      (fun hmark => absurd (idle.symm.trans hmark) (by decide)) rfl (fun x hx => ?_) hs
    rcases x with i | _ | _
    · rfl
    · exact absurd rfl hx
    · exact Iff.rfl
  | @settlesSwap s reply pending =>
    refine State.pendingOk_leave (s := s) .swap ?_ (by exact nofun) (fun x hx => ?_) hs
    · rw [PendingEntry.isOn_swap]
      exact RequestUnit.answer_table ..
    · rcases x with i | _ | _
      · rfl
      · exact absurd rfl hx
      · exact Iff.rfl
  | @halts s f runs =>
    refine State.pendingOk_enter (s := s) (e := { tag := tagOf f, job := .halt }) rfl
      (fun hhalting => absurd (runs.symm.trans hhalting) (by decide)) rfl (fun x hx => ?_) hs
    rcases x with i | _ | _
    · rfl
    · rfl
    · exact absurd rfl hx
  | @stops s reply halting =>
    refine State.pendingOk_leave (s := s) .halt ?_ (by exact nofun) (fun x hx => ?_) hs
    · rw [PendingEntry.isOn_halt]
      exact RequestUnit.answer_table ..
    · rcases x with i | _ | _
      · rfl
      · rfl
      · exact absurd rfl hx
  | blanks blank => exact blank.pendingOk

/-- Settles O59: an entry joins where its object begins to wait, and leaves where it waits no longer. -/
theorem everyStepKeepsPendingTable : Obligations.EveryStepKeepsPendingTable := by
  intro s t h
  exact step_keeps_of_changes (fun hc => hc.pendingOk) (fun _ _ hs => hs) (fun _ hs => hs) h

end Sys2Proof.Machine
end

section
/-! SUPPORT. The contents of the rings (R25, R32), stream by stream and change by change. -/

namespace Sys2Proof.Machine

/-! ## Blocks of two streams -/

theorem State.blocksOnce.nodup_blocks {s : State} (h : s.blocksOnce) (i : StreamId) :
    (s.ring.freeBlocks ++ (s.blocksOf i ++ s.otherBlocks i)).Nodup :=
  (s.allBlocks_perm i).nodup_iff.1 (List.nodup_iff_count_le_one.2 fun b => (h b).le)

/-- No block stands twice in one map (R26). -/
theorem State.blocksOnce.nodup {s : State} (h : s.blocksOnce) {i : StreamId} {o : Opening} (ho : s.opening i = some o) :
    o.blockMap.Nodup := by
  rw [← State.blocksOf_of_open ho]
  exact (h.nodup_blocks i).of_append_right.of_append_left

/-- No block stands in two maps (R26). -/
theorem State.blocksOnce.disjoint {s : State} (h : s.blocksOnce) {i j : StreamId} {o p : Opening} (hij : j ≠ i)
    (ho : s.opening i = some o) (hp : s.opening j = some p) : ∀ b ∈ p.blockMap, b ∉ o.blockMap := by
  intro b hbp hbo
  rw [← State.blocksOf_of_open ho] at hbo
  rw [← State.blocksOf_of_open hp] at hbp
  have hother : b ∈ s.otherBlocks i := List.mem_flatMap.2 ⟨j, (List.mem_erase_of_ne hij).2 (mem_allStreams j), hbp⟩
  exact List.disjoint_of_nodup_append (h.nodup_blocks i).of_append_right hbo hother

/-! ## The engine -/

theorem State.sweepsOk.isSweeping {s : State} (h : s.sweepsOk) {i : StreamId} {v : Nat} (hbusy : s.ring.engine = .busy i v) :
    s.isSweeping i := by
  obtain ⟨-, hmem, -⟩ := s.sweepsOk_iff.1 h
  refine (hmem i).1 ?_
  rw [RingStore.sweepLine_busy hbusy]
  exact List.mem_cons_self ..

/-- The engine of `q` works on stream `j` as that of `r` does, or has voided nothing of it yet. -/
def RingStore.engineKept (r q : RingStore) (j : StreamId) : Prop := ∀ v, q.engine = .busy j v → v = 0 ∨ r.engine = .busy j v

theorem RingStore.engineKept_of_eq {r q : RingStore} (h : q.engine = r.engine) (j : StreamId) : r.engineKept q j :=
  fun _ hv => .inr (h ▸ hv)

theorem RingStore.engineKept_engineFree (r : RingStore) (j : StreamId) : r.engineKept r.engineFree j := by
  intro v hv
  obtain ⟨-, -, -, -, hengine⟩ := r.engineFree_spec
  rw [hengine] at hv
  cases hq : r.sweepQueue with
  | nil => simp [hq] at hv
  | cons k rest =>
    simp only [hq, SweepEngine.busy.injEq] at hv
    exact .inl hv.2.symm

theorem RingStore.engineKept_joinSweep (r : RingStore) (i j : StreamId) : r.engineKept (r.joinSweep i) j := by
  intro v hv
  rw [RingStore.joinSweep_eq] at hv
  cases he : r.engine with
  | idle =>
    simp only [he, if_true, SweepEngine.busy.injEq] at hv
    exact .inl hv.2.symm
  | busy k w =>
    simp only [he, reduceCtorEq, if_false] at hv
    exact .inr hv

theorem RingStore.engineKept_leaveSweep (r : RingStore) (i j : StreamId) : r.engineKept (r.leaveSweep i) j := by
  unfold RingStore.leaveSweep
  cases he : r.engine with
  | idle => exact RingStore.engineKept_of_eq he.symm j
  | busy k w =>
    simp only
    split
    · exact r.engineKept_engineFree j
    · exact RingStore.engineKept_of_eq he.symm j

theorem RingStore.voidedOne_engine (r : RingStore) (i : StreamId) (v : Nat) (b : BlockId) :
    (r.voidedOne i v b).engine = .busy i (v + 1) := by
  simp only [RingStore.voidedOne]

theorem RingStore.read_voidedOne (r : RingStore) (i : StreamId) (v : Nat) (b : BlockId) (k : Nat) :
    (r.voidedOne i v b).read k = (r.voidBlock b).read k := by
  simp only [RingStore.voidedOne]
  generalize r.voidBlock b = q
  rfl

/-! ## The contents of one stream -/

/-- The laws of the Ring Store's contents for one stream (R25, R32). -/
def State.contentsAt (s : State) (i : StreamId) : Prop :=
  ∀ o, s.opening i = some o → (o.phase ≠ .sweeping → s.ringLaws o) ∧
    ∀ v, s.ring.engine = .busy i v → ∀ x < 32 * v, s.heldAt o x = false

theorem State.contentsOk_iff {s : State} : s.contentsOk ↔ ∀ i, s.contentsAt i :=
  ⟨fun h i o ho => ⟨h.1 i o ho, fun v hv => h.2 i v o hv ho⟩,
    fun h => ⟨fun i o ho => (h i o ho).1, fun i v o hv ho => (h i o ho).2 v hv⟩⟩

/-- Nothing that the laws of one stream's contents read has changed. -/
structure State.undisturbed (s t : State) (i : StreamId) : Prop where
  record : Option.Rel (fun o p => o.sameContents p ∧ (p.phase ≠ .sweeping → o.phase ≠ .sweeping)) (s.opening i) (t.opening i)
  entries : ∀ o x k, s.opening i = some o → o.ringEntry x = some k → t.ring.read k = s.ring.read k
  engine : s.ring.engineKept t.ring i

theorem State.undisturbed.contentsAt {s t : State} {i : StreamId} (h : s.undisturbed t i) (hs : s.contentsAt i) :
    t.contentsAt i := by
  intro p hp
  have hrecord := h.record
  rw [hp] at hrecord
  generalize ho : s.opening i = x at hrecord
  cases hrecord with
  | @some o _ hsame =>
    obtain ⟨hcontents, hphase⟩ := hsame
    have hread := fun x k => h.entries o x k ho
    refine ⟨fun hswept => State.ringLaws_congr hcontents hread ((hs o ho).1 (hphase hswept)), fun v hv x hx => ?_⟩
    rcases h.engine v hv with hzero | hbusy
    · omega
    · rw [State.heldAt_congr hcontents.blockMap fun k hk => congrArg Entry.held (hread x k hk)]
      exact (hs o ho).2 v hbusy x hx

/-- The record of a stream, its entries and the engine's work on it as they were. -/
theorem State.undisturbed_of_eq {s t : State} {i : StreamId} (ho : t.opening i = s.opening i)
    (hread : ∀ o x k, s.opening i = some o → o.ringEntry x = some k → t.ring.read k = s.ring.read k)
    (he : s.ring.engineKept t.ring i) : s.undisturbed t i where
  record := by
    rw [ho]
    cases s.opening i with
    | none => exact .none
    | some o => exact .some ⟨⟨rfl, rfl, rfl, rfl⟩, id⟩
  entries := hread
  engine := he

theorem State.undisturbed_of_ring {s t : State} {i : StreamId} (ho : t.opening i = s.opening i) (hr : t.ring = s.ring) :
    s.undisturbed t i :=
  State.undisturbed_of_eq ho (fun _ _ _ _ _ => by rw [hr]) (RingStore.engineKept_of_eq (by rw [hr]) i)

theorem State.rests.undisturbed {n : Nat} {s t : State} (h : s.rests n t) (i : StreamId) : s.undisturbed t i where
  record := (h.calm i).rec (fun hc => .some ⟨hc.1, fun hp ho => hp
    (Phase.deferred_sweeping.1 (hc.deferred.trans (Phase.deferred_sweeping.2 ho)))⟩) .none
  entries _ _ _ _ _ := by rw [h.ring]
  engine := RingStore.engineKept_of_eq (by rw [h.ring]) i

/-- A closed stream has no contents. -/
theorem State.contentsAt_of_closed {s : State} {i : StreamId} (h : s.opening i = none) : s.contentsAt i := by
  intro o ho
  rw [h] at ho
  cases ho

/-- A stream that has just joined the sweep has nothing to show: its first law waits, and the engine has voided nothing. -/
theorem State.contentsAt_of_joined {s t : State} {i : StreamId} {o : Opening} (hi : ¬ s.isSweeping i) (hsweeps : s.sweepsOk)
    (ho : t.opening i = some o) (hphase : o.phase = .sweeping) (he : s.ring.engineKept t.ring i) : t.contentsAt i := by
  intro p hp
  cases ho.symm.trans hp
  refine ⟨fun hne => absurd hphase hne, fun v hv x hx => ?_⟩
  rcases he v hv with hzero | hbusy
  · omega
  · exact absurd (hsweeps.isSweeping hbusy) hi

/-! ## The changes that reach a ring -/

/-- The next block voided: nothing is held in it any more (R32). -/
theorem State.heldAt_voidedOne {s : State} {i : StreamId} {v : Nat} {o : Opening} {b : BlockId}
    (hn : o.blockMap[v]? = some b) (hprefix : ∀ x < 32 * v, s.heldAt o x = false) :
    ∀ x < 32 * (v + 1), (s.withRing (s.ring.voidedOne i v b)).heldAt o x = false := by
  intro x hx
  rw [← Bool.not_eq_true]
  intro hheld
  obtain ⟨k, hk, hkheld⟩ := State.heldAt_iff.1 hheld
  rw [State.withRing_ring, RingStore.read_voidedOne, RingStore.read_voidBlock] at hkheld
  split at hkheld
  · cases hkheld
  · next hout =>
    by_cases hlt : x < 32 * v
    · exact absurd ((State.heldAt_eq hk).trans hkheld) (by simp [hprefix x hlt])
    · have hplace : x / 32 = v := by omega
      obtain ⟨c, hc, hkc⟩ := Opening.ringEntry_eq_some.1 hk
      rw [hplace, hn] at hc
      cases hc
      omega

/-- The block voided belongs to no other stream (R26, R32). -/
theorem RingStore.read_voidedOne_other {r : RingStore} {i : StreamId} {v : Nat} {b : BlockId} {o : Opening}
    (hb : b ∉ o.blockMap) {x k : Nat} (hk : o.ringEntry x = some k) : (r.voidedOne i v b).read k = r.read k := by
  rw [RingStore.read_voidedOne, RingStore.read_voidBlock, if_neg]
  intro hin
  obtain ⟨c, hc, hkc⟩ := Opening.ringEntry_eq_some.1 hk
  have hcb : c = b := Fin.ext (by omega)
  exact hb (hcb ▸ List.mem_of_getElem? hc)

/-- What the laws of the contents lean on: shapes, blocks and sweeps in order. -/
structure State.ringsOrdered (s : State) : Prop where
  shaped : s.ringsShaped
  once : s.blocksOnce
  sweeps : s.sweepsOk

theorem State.changes.ringsOrdered {n : Nat} {s t : State} (h : s.changes n t) (hs : s.ringsOrdered) : t.ringsOrdered :=
  ⟨h.rings.2 hs.shaped, h.rings.1 hs.once, h.sweepsOk hs.sweeps⟩

theorem State.contentsAt_closeStream {s : State} {i j : StreamId} {o : Opening} (ho : s.opening i = some o) (drainEnded : Bool)
    (hs : s.contentsAt j) : (s.closeStream i drainEnded).contentsAt j := by
  by_cases hj : j = i
  · subst hj
    exact State.contentsAt_of_closed (by rw [State.opening_closeStream ho, if_pos rfl])
  · refine (State.undisturbed_of_eq (State.opening_closeStream_ne ho drainEnded hj) (fun _ _ k _ _ => ?_) ?_).contentsAt hs
    · rw [State.ring_closeStream ho, RingStore.read_leaveSweep, RingStore.read_giveBack]
    · rw [State.ring_closeStream ho]
      exact RingStore.engineKept_leaveSweep (s.ring.giveBack o.blockMap) i j

theorem State.contentsAt_acceptOpen {s : State} {q : OpenRequest} {i j : StreamId} (f : Frame) (h : s.openRefusal q i = none)
    (hsweeps : s.sweepsOk) (hs : s.contentsAt j) : (s.acceptOpen f q i).contentsAt j := by
  have hengine : s.ring.engineKept (s.acceptOpen f q i).ring j := by
    rw [State.ring_acceptOpen]
    exact RingStore.engineKept_joinSweep (s.ring.dropHead (q.ringSize / 32)) i j
  by_cases hj : j = i
  · subst hj
    obtain ⟨-, hclosed, -, -⟩ := State.openRefusal_accepts h
    exact State.contentsAt_of_joined (State.not_isSweeping_of_closed hclosed) hsweeps (s.opening_acceptOpen_self f q j) rfl hengine
  · refine (State.undisturbed_of_eq (State.opening_acceptOpen_ne s f q hj) (fun _ _ k _ _ => ?_) hengine).contentsAt hs
    rw [State.ring_acceptOpen, RingStore.read_joinSweep, RingStore.read_dropHead]

theorem State.contentsAt_voids {s : State} {i j : StreamId} {v : Nat} {o : Opening} {b : BlockId} (hbusy : s.ring.engine = .busy i v)
    (ho : s.opening i = some o) (hn : o.blockMap[v]? = some b) (hordered : s.ringsOrdered) (hs : s.contentsAt j) :
    (s.withRing (s.ring.voidedOne i v b)).contentsAt j := by
  by_cases hj : j = i
  · subst hj
    intro p hp
    cases ho.symm.trans ((State.opening_withRing ..).symm.trans hp)
    have hphase := (State.isSweeping_of_open ho).1 (hordered.sweeps.isSweeping hbusy)
    refine ⟨fun hne => absurd hphase hne, fun w hw => ?_⟩
    rw [State.withRing_ring, RingStore.voidedOne_engine, SweepEngine.busy.injEq] at hw
    rw [← hw.2]
    exact State.heldAt_voidedOne hn ((hs o ho).2 v hbusy)
  · refine (State.undisturbed_of_eq (s := s) (t := s.withRing (s.ring.voidedOne i v b)) (State.opening_withRing ..)
      (fun p x k hp hk => ?_) (fun w hw => ?_)).contentsAt hs
    · rw [State.withRing_ring]
      refine RingStore.read_voidedOne_other (fun hb => ?_) hk
      exact hordered.once.disjoint hj ho hp b hb (List.mem_of_getElem? hn)
    · rw [State.withRing_ring, RingStore.voidedOne_engine, SweepEngine.busy.injEq] at hw
      exact absurd hw.1.symm hj

/-- A ring swept to its end holds nothing: its stream obeys the laws with fresh count 0 (R25, R33). -/
theorem State.contentsAt_sweepDone {s : State} {i j : StreamId} {o : Opening} (hbusy : s.ring.engine = .busy i o.blockMap.length)
    (ho : s.opening i = some o) (hshape : o.shapeOk) (hs : s.contentsAt j) : (s.sweepDone i o).contentsAt j := by
  have hrewrites := State.rewrites_finishes ho
  have hread : ∀ k, (s.sweepDone i o).ring.read k = s.ring.read k := fun k => by
    rw [State.ring_sweepDone, RingStore.read_engineFree]
  have hengine : ∀ k, s.ring.engineKept (s.sweepDone i o).ring k := fun k => by
    rw [State.ring_sweepDone]
    exact s.ring.engineKept_engineFree k
  by_cases hj : j = i
  · subst hj
    have hempty : ∀ x < 32 * o.blockMap.length, (s.sweepDone j o).heldAt o.swept x = false := fun x hx => by
      rw [State.heldAt_congr (s := s) (o := o) (p := o.swept) rfl fun k _ => congrArg Entry.held (hread k)]
      exact (hs o ho).2 _ hbusy x hx
    have hsize : o.swept.ringSize = 32 * o.blockMap.length := hshape.2.symm.trans (Nat.mul_comm ..)
    intro p hp
    cases hrewrites.after.symm.trans hp
    refine ⟨fun _ => State.ringLaws_of_empty (by rwa [hsize]) rfl, fun v hv x hx => ?_⟩
    rw [State.ring_sweepDone] at hv
    rcases s.ring.engineKept_engineFree j v hv with hzero | hv
    · omega
    · cases hbusy.symm.trans hv
      exact hempty x hx
  · exact (State.undisturbed_of_eq (hrewrites.others j hj) (fun _ _ k _ _ => hread k) (hengine j)).contentsAt hs

theorem State.contentsAt_refills {s : State} {i j : StreamId} {o p : Opening} {r : RingStore} (ho : s.opening i = some o)
    (hswept : o.phase ≠ .sweeping) (h : s.refills o r p) (hordered : s.ringsOrdered) (hs : s.contentsAt j) :
    ((s.withRing r).withOpening i (some p)).contentsAt j := by
  have hrewrites := State.rewrites_refills r p ho
  by_cases hj : j = i
  · subst hj
    intro p' hp'
    cases hrewrites.after.symm.trans hp'
    refine ⟨fun _ => h.laws (hordered.shaped j o ho) (hordered.once.nodup ho) ((hs o ho).1 hswept), fun v hv => ?_⟩
    have hbusy : s.ring.engine = .busy j v := h.engine.symm.trans hv
    exact absurd ((State.isSweeping_of_open ho).1 (hordered.sweeps.isSweeping hbusy)) hswept
  · refine (State.undisturbed_of_eq (hrewrites.others j hj) (fun q x k hq hk => ?_)
      (RingStore.engineKept_of_eq h.engine j)).contentsAt hs
    exact h.outside k fun y => Opening.ringEntry_disjoint (hordered.once.disjoint hj ho hq) hk

/-! ## Every step -/

theorem State.changes.contentsAt {n : Nat} {s t : State} (h : s.changes n t) (hordered : s.ringsOrdered)
    (hs : ∀ j, s.contentsAt j) : ∀ j, t.contentsAt j := by
  induction h with
  | rests rest => exact fun j => (rest.undisturbed j).contentsAt (hs j)
  | trans first _ ihfirst ihsecond => exact ihsecond (first.ringsOrdered hordered) (ihfirst hordered hs)
  | closes opened drainEnded => exact fun j => State.contentsAt_closeStream opened drainEnded (hs j)
  | opens f accepted => exact fun j => State.contentsAt_acceptOpen f accepted hordered.sweeps (hs j)
  | @drains s i o f opened plays =>
    intro j
    have hrewrites := State.rewrites_drains f opened
    by_cases hj : j = i
    · subst hj
      refine State.undisturbed.contentsAt (s := s) ⟨?_, fun _ _ _ _ _ => rfl, RingStore.engineKept_of_eq rfl j⟩ (hs j)
      rw [hrewrites.before, hrewrites.after]
      exact .some ⟨⟨rfl, rfl, rfl, rfl⟩, fun _ => by rw [plays]; nofun⟩
    · exact (State.undisturbed_of_ring (hrewrites.others j hj) rfl).contentsAt (hs j)
  | @restarts s i o f start opened settled =>
    intro j
    have hrewrites := State.rewrites_restarts f start opened
    have hengine := s.ring.engineKept_joinSweep i j
    by_cases hj : j = i
    · subst hj
      refine State.contentsAt_of_joined ?_ hordered.sweeps hrewrites.after rfl hengine
      rw [State.isSweeping_iff, State.waitsIn_of_open opened, settled]
      nofun
    · exact (State.undisturbed_of_eq (hrewrites.others j hj) (fun _ _ k _ _ => s.ring.read_joinSweep i k) hengine).contentsAt
        (hs j)
  | voids busy opened next => exact fun j => State.contentsAt_voids busy opened next hordered (hs j)
  | finishes busy opened => exact fun j => State.contentsAt_sweepDone busy opened (hordered.shaped _ _ opened) (hs j)
  | refills opened swept refill => exact fun j => State.contentsAt_refills opened swept refill hordered (hs j)
  | marksSwap => exact hs
  | settlesSwap => exact hs
  | halts => exact hs
  | stops => exact hs
  | blanks blank => exact fun j => State.contentsAt_of_closed (blank.closed j)

/-- Settles O60: each change is followed for every stream, the rings of different streams having no entry in common. -/
theorem everyStepKeepsRingLaws : Obligations.EveryStepKeepsRingLaws := by
  intro s t h hshaped honce hsweeps hcontents
  have hkept : t.ringsOrdered ∧ ∀ j, t.contentsAt j :=
    step_keeps_of_changes (P := fun u => u.ringsOrdered ∧ ∀ j, u.contentsAt j)
      (fun hc hu => ⟨hc.ringsOrdered hu.1, hc.contentsAt hu.1 hu.2⟩)
      (fun _ _ ⟨hordered, hu⟩ => ⟨⟨hordered.shaped, hordered.once, hordered.sweeps⟩, hu⟩)
      (fun _ ⟨hordered, hu⟩ => ⟨⟨hordered.shaped, hordered.once, hordered.sweeps⟩, hu⟩) h
      ⟨⟨hshaped, honce, hsweeps⟩, State.contentsOk_iff.1 hcontents⟩
  exact State.contentsOk_iff.2 hkept.2

end Sys2Proof.Machine
end

section
/-! SUPPORT. The block voided and the sweep completed (R31 to R33). -/

namespace Sys2Proof.Machine

/-! ## One block -/

theorem RingStore.voidRun_epoch (r : RingStore) (base n : Nat) : (r.voidRun base n).epoch = r.epoch := by
  induction n with
  | zero => rfl
  | succ n ih => exact ih

/-- A block voided is a store with its 32 entries cleared (R24 (3), R32). -/
theorem RingStore.clearsTo_voidBlock (r : RingStore) (b : BlockId) :
    r.clearsTo (fun k => b.val * 32 ≤ k ∧ k < b.val * 32 + 32) (r.voidBlock b) := by
  refine ⟨fun k hk => ?_, fun k hk => ?_, r.voidRun_epoch _ _, r.voidBlock_freeBlocks b, r.voidBlock_sweepQueue b,
    r.voidBlock_engine b⟩
  · rw [RingStore.read_voidBlock, if_pos hk]
  · rw [RingStore.read_voidBlock, if_neg hk]

/-! ## The event -/

theorem exec_blockVoided (s : State) : exec .blockVoided s = execBlockVoided s := rfl

theorem exec_blockVoided_idle {s : State} (h : s.ring.engine = .idle) : exec .blockVoided s = .next s := by
  rw [exec_blockVoided, execBlockVoided, h]

theorem exec_blockVoided_busy {s : State} {i : StreamId} {v : Nat} (hs : s.inService) (h : s.ring.engine = .busy i v) :
    exec .blockVoided s = .next (s.voidNext i v) := by
  obtain ⟨hclock, hrst⟩ := hs
  rw [exec_blockVoided, execBlockVoided, h]
  simp only [State.onlyIf, State.live, hclock, hrst, Bool.not_false, Bool.and_self, if_true]

theorem State.voidNext_between {s : State} {i : StreamId} {v : Nat} {o : Opening} {b : BlockId} (ho : s.opening i = some o)
    (hb : o.blockMap[v]? = some b) (hv : v + 1 ≠ o.blockMap.length) : s.voidNext i v = s.withRing (s.ring.voidedOne i v b) := by
  simp only [State.voidNext, ho, hb, if_neg hv]

theorem State.voidNext_last {s : State} {i : StreamId} {v : Nat} {o : Opening} {b : BlockId} (ho : s.opening i = some o)
    (hb : o.blockMap[v]? = some b) (hv : v + 1 = o.blockMap.length) :
    s.voidNext i v = (s.withRing (s.ring.voidedOne i v b)).sweepDone i o := by
  simp only [State.voidNext, ho, hb, if_pos hv]

/-! ## The completion -/

/-- The engine after a completed sweep, whole (R31). -/
theorem RingStore.engineFree_voidedOne (r : RingStore) (i : StreamId) (v : Nat) (b : BlockId) :
    (r.voidedOne i v b).engineFree = { r.voidBlock b with
      sweepQueue := r.sweepQueue.tail
      engine := match r.sweepQueue with | [] => .idle | j :: _ => .busy j 0 } := by
  rw [← r.voidBlock_sweepQueue b, RingStore.voidedOne]
  generalize r.voidBlock b = q
  unfold RingStore.engineFree
  cases hq : q.sweepQueue <;> simp

/-- The state after a completed sweep whose entry is `e` (R33). -/
theorem State.sweepDone_eq {s : State} {i : StreamId} {e : PendingEntry} (o : Opening)
    (he : s.req.pendingTable.find? (·.isOf i) = some e) :
    s.sweepDone i o = { s with
      streams := s.streams.put i { s.stream i with opening := some o.swept }
      req := { s.req with
        pendingTable := s.req.pendingTable.eraseP (·.isOf i)
        replyQueue := s.req.replyQueue ++ [sweptReply (s.stream i).generation e] }
      ring := s.ring.engineFree } := by
  have hanswer : s.req.answer (fun e => e.isOf i) (sweptReply (s.stream i).generation) = { s.req with
      pendingTable := s.req.pendingTable.eraseP (·.isOf i)
      replyQueue := s.req.replyQueue ++ [sweptReply (s.stream i).generation e] } := by
    rw [RequestUnit.answer_eq, he]
    rfl
  exact congrArg (fun u => ((s.withOpening i (some o.swept)).withReq u).withRing s.ring.engineFree) hanswer

/-- The answer to an OPEN has the generation, that to a RESUME the state too (R33; log 11). -/
theorem sweptReply_eq {e : PendingEntry} {i : StreamId} (g : Byte) (h : e.job = .openOf i ∨ e.job = .resumeOf i) :
    sweptReply g e = ⟨e.tag, e.job.kind, .done, byteOf i.val,
      if e.job = .openOf i then .generation g else .stateGeneration .priming g⟩ := by
  rcases h with hopen | hresume
  · simp only [sweptReply, hopen, PendingEntry.reply, PendingJob.stream, streamByte, if_true]
  · simp only [sweptReply, hresume, PendingEntry.reply, PendingJob.stream, streamByte, reduceCtorEq, if_false]

/-- Settles O45: the store with the next block voided is the one asked for. -/
theorem blockVoidedAndSweepCompleted : Obligations.BlockVoidedAndSweepCompleted := by
  refine ⟨fun s _ hidle => exec_blockVoided_idle hidle, fun s i v o b hs hbusy ho hb =>
    ⟨s.ring.voidBlock b, s.ring.clearsTo_voidBlock b, fun hv => ?_, fun hv e he hjob => ?_⟩⟩
  · rw [exec_blockVoided_busy hs hbusy, State.voidNext_between ho hb hv, RingStore.voidedOne, State.withRing]
  · have hswept := State.sweepDone_eq (s := s.withRing (s.ring.voidedOne i v b)) o he
    rw [State.withRing_ring, RingStore.engineFree_voidedOne] at hswept
    rw [exec_blockVoided_busy hs hbusy, State.voidNext_last ho hb hv, hswept]
    rw [State.withRing_req, State.withRing_streams, State.stream_withRing, sweptReply_eq _ hjob]
    generalize s.ring.voidBlock b = r
    generalize s.ring.voidedOne i v b = q
    rfl

end Sys2Proof.Machine
end

section
/-! SUPPORT. Where a classified bundle writes (R23, R24 (1), R45, R47). -/

namespace Sys2Proof.Machine

/-! ## The command -/

theorem frameCommand_bundle {f : Frame} (h : kindOf f = 0x20) : frameCommand f = .bundle := by
  simp [frameCommand, h]

/-- A well formed bundle has at most 32 samples (R39). -/
theorem parseBundle_length {f : Frame} {q : BundleRequest} (h : parseBundle f = some q) : q.values.length ≤ 32 := by
  unfold parseBundle at h
  split at h
  · split at h
    · split at h
      · next hcount =>
        cases h
        exact hcount.2.2
      · cases h
    · cases h
  · cases h

theorem exec_bundle (s : State) : exec .bundle s = handleHead .bundle handleBundle s := rfl

theorem handleBundle_classifies {s : State} {f : Frame} {q : BundleRequest} {o : Opening} (hq : parseBundle f = some q)
    (ho : s.opening q.stream = some o) (hswept : o.phase ≠ .sweeping) (hdrain : o.phase ≠ .draining) :
    handleBundle f s = s.classifyBundle f q o := by
  simp only [handleBundle, hq, State.takeBundle, ho]
  cases hp : o.phase with
  | sweeping => exact absurd hp hswept
  | draining => exact absurd hp hdrain
  | priming => rfl
  | playing => rfl
  | starved => rfl

/-! ## The Ring Store after the steps of R40 -/

theorem State.raiseNotice_ring (s : State) (i : StreamId) (k : NoticeKind) (n : Nat) : (s.raiseNotice i k n).ring = s.ring := by
  cases ho : s.opening i with
  | none => rw [State.raiseNotice_closed ho]
  | some o => rw [State.raiseNotice_eq ho, State.withNotices_ring]

theorem State.testStart_ring (s : State) (i : StreamId) : (s.testStart i).ring = s.ring := by
  unfold State.testStart
  split
  · rfl
  · split
    · rw [State.startPlaying_eq, State.withNotices_ring, State.withOpening_ring]
    · rfl

theorem State.noteDiscards_ring (s : State) (i : StreamId) (n : PlaceCounts) : (s.noteDiscards i n).ring = s.ring := by
  unfold State.noteDiscards
  split
  · rfl
  · exact State.raiseNotice_ring ..

theorem State.acknowledge_ring (s : State) (f : Frame) (i : StreamId) (status : Status) (n : PlaceCounts) :
    (s.acknowledge f i status n).ring = s.ring := by
  unfold State.acknowledge
  split <;> rfl

/-- Of the steps of R40 only the first writes to the Ring Store. -/
theorem State.classifyBundle_ring (s : State) (f : Frame) (q : BundleRequest) (o : Opening) :
    (s.classifyBundle f q o).ring = (s.classified q o).2 := by
  rw [State.classifyBundle, State.acknowledge_ring, State.noteDiscards_ring, State.testStart_ring, State.placeBundle,
    State.withCounters_ring, State.withOpening_ring, State.withRing_ring]

theorem State.classified_epoch (s : State) (q : BundleRequest) (o : Opening) : (s.classified q o).2.epoch = s.ring.epoch :=
  placeSamples_induct (P := fun r => r.epoch = s.ring.epoch) (fun _ _ _ _ _ h => h) _ _ _ _ _ rfl

/-- The Ring Store a classified bundle leaves. -/
theorem exec_bundle_classifies {s : State} {f : Frame} {rest : List Frame} {q : BundleRequest} {o : Opening}
    (h : s.classifies f rest q o) : ∃ t, exec .bundle s = .next t ∧ t.ring = (s.classified q o).2 := by
  obtain ⟨htake, hkind, hq, ho, hswept, hdrain, -, -⟩ := h
  refine ⟨_, (exec_bundle s).trans (handleHead_of_canTake htake (frameCommand_bundle hkind) _), ?_⟩
  rw [State.endHandling_ring, handleBundle_classifies (s := s.beginHandling f) hq ho hswept hdrain, State.classifyBundle_ring]
  rfl

/-- Settles O44, from what the samples do one after the other. -/
theorem placedSamplesAreWrittenAtTheirIndex : Obligations.PlacedSamplesAreWrittenAtTheirIndex := by
  intro s f rest q o h pos placedAt
  obtain ⟨t, hexec, hring⟩ := exec_bundle_classifies h
  obtain ⟨-, -, hq, -, -, -, hshape, hnodup⟩ := h
  have hlength := parseBundle_length hq
  obtain ⟨hwritten, hothers⟩ := read_placeSamples (pos := pos) hshape hnodup q.values s q.first {} (by omega)
  have hrefills := s.refills_classified q o
  rw [← hring] at hrefills
  refine ⟨t, hexec, fun k hk hp => ?_, fun k x ⟨hk, hp, hx⟩ => ?_, fun x hx => ?_, ?_, hrefills.freeBlocks,
    hrefills.sweepQueue, hrefills.engine⟩
  · obtain ⟨x, hx⟩ := hshape.entryNumber (q.seqAt k)
    exact ⟨x, hk, hp, hx⟩
  · rw [hring]
    exact hwritten k x hk hp hx
  · rw [hring]
    exact hothers x fun k hk hp hxk => hx k ⟨hk, hp, hxk⟩
  · rw [hring, State.classified_epoch]

end Sys2Proof.Machine
end

section
/-! SUPPORT. A bundle from its frame to its answer (R39 to R42, R51), and the samples of a classified one counted
(R45, R51 (2)). -/

namespace Sys2Proof.Machine

/-! ## The counts -/

/-- The count of a class. -/
def PlaceCounts.of (c : PlaceCounts) : SampleClass → Nat
  | .late => c.late
  | .ahead => c.ahead
  | .duplicate => c.duplicate
  | .placed => c.placed

theorem PlaceCounts.of_count (c : PlaceCounts) (x y : SampleClass) :
    (c.count y).of x = c.of x + if y = x then 1 else 0 := by
  cases y <;> cases x <;> rfl

/-- The samples counted. -/
def PlaceCounts.total (c : PlaceCounts) : Nat := c.placed + c.duplicate + c.late + c.ahead

theorem PlaceCounts.total_count (c : PlaceCounts) (x : SampleClass) : (c.count x).total = c.total + 1 := by
  unfold PlaceCounts.total
  cases x <;> simp only [PlaceCounts.count] <;> omega

/-- Each sample is of one class (R51 (2)). -/
theorem total_placeSamples (o : Opening) (pos : Half) (vs : List Word) : ∀ (t : Half) (r : RingStore) (c : PlaceCounts),
    (placeSamples o pos t vs r c).1.total = c.total + vs.length := by
  induction vs with
  | nil => exact fun _ _ _ => rfl
  | cons v vs ih =>
    intro t r c
    rw [placeSamples_cons, ih, PlaceCounts.total_count, List.length_cons]
    omega

/-! ## The class of a sample -/

/-- A sample is of the class that the ring as it finds it gives (R45). -/
theorem placeSample_class {s : State} {o : Opening} {pos t : Half} {k : Nat} (v : Word) (hk : o.entryNumber t = some k) :
    (placeSample o pos t v s.ring).1 = s.classOf o pos t := by
  unfold placeSample State.classOf
  rw [State.heldAt_eq hk]
  split
  · rfl
  · split
    · rfl
    · simp only [hk, RingStore.place_eq]
      cases (s.ring.read k).held <;> rfl

/-- A sample does not change the class of one with another sequence number: if it is placed, the other belongs at another
entry or outside the window (R23, R43). -/
theorem State.classOf_after_placeSample {s : State} {o : Opening} {pos t u : Half} (v : Word) (hs : o.shapeOk)
    (hn : o.blockMap.Nodup) (hne : u ≠ t) :
    (s.withRing (placeSample o pos t v s.ring).2).classOf o pos u = s.classOf o pos u := by
  obtain ⟨k, hk⟩ := hs.entryNumber t
  by_cases hp : s.classOf o pos t = .placed
  · obtain ⟨h0, h1, -⟩ := State.classOf_eq_placed.1 hp
    rw [placeSample_placed v hk hp]
    unfold State.classOf
    split
    · rfl
    · next hu0 =>
      split
      · rfl
      · next hu1 =>
        rw [State.heldAt_congr (s := s) rfl fun l hl => ?_]
        have hkl : l ≠ k := by
          rintro rfl
          exact hne (seq_eq_of_window hs (by omega) (by omega) h0 h1 (Opening.ringEntry_inj hn hl hk))
        rw [State.withRing_ring, RingStore.read_write_ne _ _ hkl]
  · obtain ⟨x, -, hsample⟩ := placeSample_other v hk hp
    rw [hsample]
    rfl

/-- Samples with one sequence number after the other have different ones. -/
theorem seq_succ_ne (t : Half) {k : Nat} (h : k + 1 < 65536) : t + BitVec.ofNat 16 (k + 1) ≠ t := by
  intro he
  have hnat : (t + BitVec.ofNat 16 (k + 1)).toNat = t.toNat := congrArg BitVec.toNat he
  rw [BitVec.toNat_add, BitVec.toNat_ofNat] at hnat
  have := t.isLt
  omega

/-- The samples of a bundle are counted by their classes in the ring as the bundle finds it (R45, R51 (2)). -/
theorem of_placeSamples {o : Opening} {pos : Half} (hs : o.shapeOk) (hn : o.blockMap.Nodup) (x : SampleClass)
    (vs : List Word) : ∀ (s : State) (t : Half) (c : PlaceCounts), vs.length < 65536 →
    (placeSamples o pos t vs s.ring c).1.of x = c.of x +
      (List.range vs.length).countP fun k => decide (s.classOf o pos (t + BitVec.ofNat 16 k) = x) := by
  induction vs with
  | nil => exact fun _ _ _ _ => rfl
  | cons v vs ih =>
    intro s t c hlen
    have hlen : vs.length + 1 < 65536 := hlen
    obtain ⟨e, he⟩ := hs.entryNumber t
    have hfirst : t + BitVec.ofNat 16 0 = t := BitVec.add_zero t
    have hnext : ∀ k, t + 1 + BitVec.ofNat 16 k = t + BitVec.ofNat 16 (k + 1) := fun k => by
      rw [BitVec.ofNat_add, BitVec.add_assoc, BitVec.add_comm (BitVec.ofNat 16 k)]; rfl
    have hlater : ((List.range vs.length).countP fun k => decide
          ((s.withRing (placeSample o pos t v s.ring).2).classOf o pos (t + 1 + BitVec.ofNat 16 k) = x)) =
        (List.range vs.length).countP fun k => decide (s.classOf o pos (t + BitVec.ofNat 16 (k + 1)) = x) := by
      refine List.countP_congr fun k hk => ?_
      have hk : k < vs.length := List.mem_range.1 hk
      rw [hnext, State.classOf_after_placeSample v hs hn (seq_succ_ne t (by omega))]
    have hrest := ih (s.withRing (placeSample o pos t v s.ring).2) (t + 1) (c.count (s.classOf o pos t)) (by omega)
    rw [hlater, State.withRing_ring, PlaceCounts.of_count] at hrest
    rw [placeSamples_cons, placeSample_class v he, hrest, List.length_cons, List.range_succ_eq_map, List.countP_cons,
      List.countP_map, hfirst]
    simp only [decide_eq_true_eq]
    rw [Nat.add_assoc, Nat.add_comm (ite ..)]
    rfl

/-- The four counts of a classified bundle, by class (R45, R51 (2)). -/
theorem State.classified_counts {s : State} {q : BundleRequest} {o : Opening} (hs : o.shapeOk) (hn : o.blockMap.Nodup)
    (hl : q.values.length ≤ 32) :
    (s.classified q o).1 =
      { placed := s.countOf o (o.adopt q) q .placed, duplicate := s.countOf o (o.adopt q) q .duplicate
        late := s.countOf o (o.adopt q) q .late, ahead := s.countOf o (o.adopt q) q .ahead } := by
  have hcount : ∀ x, (s.classified q o).1.of x = s.countOf o (o.adopt q) q x := fun x => by
    rw [State.classified, of_placeSamples hs hn x q.values s q.first {} (by omega), State.countOf,
      ← List.countP_eq_length_filter]
    cases x <;> exact Nat.zero_add _
  exact (PlaceCounts.mk.injEq ..).mpr ⟨hcount .placed, hcount .duplicate, hcount .late, hcount .ahead⟩

theorem State.total_classified (s : State) (q : BundleRequest) (o : Opening) :
    (s.classified q o).1.total = q.values.length :=
  (total_placeSamples o (o.adopt q) q.values q.first s.ring {}).trans (Nat.zero_add _)

/-! ## The answer -/

theorem parseBundle_named {f : Frame} {q : BundleRequest} (h : parseBundle f = some q) : 3 ≤ f.length := by
  unfold parseBundle at h
  split at h
  · simp
  · cases h

/-- An acknowledgment, unless the tag is 0, carries the counts and the stream's state (R51). -/
theorem State.acknowledge_eq {f : Frame} {q : BundleRequest} (hk : kindOf f = 0x20) (hq : parseBundle f = some q)
    {status : Status} (hs : status ≠ .badForm) (s : State) (i : StreamId) (n : PlaceCounts) :
    s.acknowledge f i status n = if tagOf f = 0 then s else s.queued
      ⟨tagOf f, 0x20, status, byteAt f 2, .bundle n.placed n.duplicate n.late n.ahead (s.stream i).state⟩ := by
  unfold State.acknowledge
  rw [← replyFor_named hk rfl (parseBundle_named hq) hs]
  rfl

theorem State.acknowledge_endHandling (s : State) (f : Frame) (i : StreamId) (status : Status) (n : PlaceCounts) :
    (s.acknowledge f i status n).endHandling = s.endHandling.acknowledge f i status n := by
  unfold State.acknowledge
  split <;> rfl

/-- Of the whole state an answer that may be left out changes the reply queue. -/
theorem State.ite_queued (s : State) (p : Prop) [Decidable p] (r : Reply) :
    (if p then s else s.queued r) =
      { s with req := { s.req with replyQueue := s.req.replyQueue ++ if p then [] else [r] } } := by
  split
  · rw [List.append_nil]
  · rfl

theorem State.state_of_closed {s : State} {i : StreamId} (h : s.opening i = none) : (s.stream i).state = .closed := by
  unfold State.opening at h
  rw [StreamRec.state, h]

theorem State.state_of_open {s : State} {i : StreamId} {o : Opening} (h : s.opening i = some o) :
    (s.stream i).state = o.phase.state := by
  unfold State.opening at h
  rw [StreamRec.state, h]

end Sys2Proof.Machine
end

section
/-! SUPPORT. The bundles that are not placed (R39, R41, R42). -/

namespace Sys2Proof.Machine

theorem State.malformed_tagged {f : Frame} (htag : tagOf f ≠ 0) (s : State) : s.malformed f = s.refuse f .badForm :=
  if_neg htag

theorem State.malformed_untagged {f : Frame} (htag : tagOf f = 0) (s : State) :
    s.malformed f = s.withLink { s.link with counters :=
      { s.link.counters with badForm := s.link.counters.badForm + 1 } } := if_pos htag

theorem handleBundle_malformed {f : Frame} (h : parseBundle f = none) (s : State) : handleBundle f s = s.malformed f := by
  rw [handleBundle, h]

theorem handleBundle_closed {s : State} {f : Frame} {q : BundleRequest} (hq : parseBundle f = some q)
    (ho : s.opening q.stream = none) : handleBundle f s = s.bundleForClosed f q.stream := by
  simp only [handleBundle, hq, State.takeBundle, ho]

theorem handleBundle_refused {s : State} {f : Frame} {q : BundleRequest} {o : Opening} (hq : parseBundle f = some q)
    (ho : s.opening q.stream = some o) (hp : o.phase = .sweeping ∨ o.phase = .draining) :
    handleBundle f s = s.refuseBundle f q := by
  simp only [handleBundle, hq, State.takeBundle, ho]
  rcases hp with hp | hp <;> rw [hp]

section Taken

variable {s : State} {f : Frame} {rest : List Frame} {q : BundleRequest}

/-- A frame of kind BUNDLE that can be taken is handled as a bundle. -/
theorem State.canTake.exec_bundle (h : s.canTake f rest) (hk : kindOf f = 0x20) :
    exec .bundle s = .next (handleBundle f (s.beginHandling f)).endHandling :=
  handleHead_of_canTake h (frameCommand_bundle hk) _

/-- A malformed bundle with tag 0 is counted as bad form, and nothing else (R39, R158). -/
theorem State.malformed_endHandling (h : s.canTake f rest) (htag : tagOf f = 0) :
    ((s.beginHandling f).malformed f).endHandling = (s.without rest).withLink { (s.without rest).link with counters :=
      { s.link.counters with badForm := s.link.counters.badForm + 1 } } := by
  rw [State.malformed_untagged htag, ← State.without_of_beginHandling h]
  rfl

/-- A bundle for a CLOSED stream raises the global counter and is acknowledged, and nothing else (R41). -/
theorem State.bundleForClosed_endHandling (h : s.canTake f rest) (i : StreamId) :
    ((s.beginHandling f).bundleForClosed f i).endHandling = ((s.without rest).withGlobals
      { s.req.globals with bundlesForClosed := s.req.globals.bundlesForClosed + 1 }).acknowledge f i .noStream {} := by
  rw [State.bundleForClosed, State.acknowledge_endHandling, ← State.without_of_beginHandling h]
  rfl

/-- A bundle refused whole raises refused by its count and is acknowledged, and nothing else (R42). -/
theorem State.refuseBundle_endHandling (h : s.canTake f rest) :
    ((s.beginHandling f).refuseBundle f q).endHandling = ((s.without rest).withCounters q.stream
      { s.counters q.stream with refused := (s.counters q.stream).refused + BitVec.ofNat 32 q.values.length }).acknowledge
        f q.stream .wrongState {} := by
  rw [State.refuseBundle, State.acknowledge_endHandling, ← State.without_of_beginHandling h]
  rfl

end Taken

/-- Settles O42: the four ways a bundle is not placed, each with its counter and its answer. -/
theorem bundleNotPlacedIsCounted : Obligations.BundleNotPlacedIsCounted := by
  intro s f rest h hk acknowledged
  have hexec := h.exec_bundle hk
  refine ⟨fun hbad htag => ?_, fun hbad htag => ?_, fun q hq => ⟨fun ho => ?_, fun o ho hp => ?_⟩⟩
  · exact handleHead_badForm h (frameCommand_bundle hk) hk
      ((handleBundle_malformed hbad _).trans (State.malformed_tagged htag _))
  · rw [hexec, handleBundle_malformed hbad, State.malformed_endHandling h htag]
    rfl
  · have hstate : (((s.without rest).withGlobals
        { s.req.globals with bundlesForClosed := s.req.globals.bundlesForClosed + 1 }).stream q.stream).state = .closed :=
      State.state_of_closed ho
    rw [hexec, handleBundle_closed (s := s.beginHandling f) hq ho, State.bundleForClosed_endHandling h,
      State.acknowledge_eq hk hq (status := .noStream) nofun, hstate]
    rfl
  · have hstate : (((s.without rest).withCounters q.stream { s.counters q.stream with
        refused := (s.counters q.stream).refused + BitVec.ofNat 32 q.values.length }).stream q.stream).state = o.phase.state :=
      State.state_of_open ((State.opening_withCounters ..).trans ho)
    rw [hexec, handleBundle_refused (s := s.beginHandling f) hq ho hp, State.refuseBundle_endHandling h,
      State.acknowledge_eq hk hq (status := .wrongState) nofun, hstate]
    rfl

end Sys2Proof.Machine
end

section
/-! SUPPORT. What a classified bundle leaves of the record, the notices and the answer (R40, R44, R49 to R52). -/

namespace Sys2Proof.Machine

/-! ## The steps of R40 after the samples -/

/-- The record after steps (1) and (2) of R40: the play position taken and the fresh count raised. -/
def Opening.afterBundle (o : Opening) (q : BundleRequest) (placed : Nat) : Opening :=
  { o with playPos := some (o.adopt q), freshCount := o.freshCount + placed }

/-- The DISCARD cell after a bundle with `lost` late and ahead samples (R50). -/
def StreamNotices.noteDiscard (n : StreamNotices) (lost : Nat) (m : NoticeMask) : StreamNotices :=
  { n with discard := n.discard.raisedIf (decide (lost ≠ 0) && m.discard) lost }

theorem State.placeBundle_eq (s : State) (q : BundleRequest) (o : Opening) :
    s.placeBundle q o = (s.withRing (s.classified q o).2).retuned q.stream
      { s.stream q.stream with
        opening := some (o.afterBundle q (s.classified q o).1.placed)
        counters := (s.counters q.stream).countPlaced (s.classified q o).1 }
      (s.noticesOf q.stream) s.coll := by
  rw [State.placeBundle, State.withOpening_withCounters]
  refine (State.withNotices_noticesOf _ q.stream).symm.trans ?_
  rfl

/-- The test of R49 is comparison (1) of R16. -/
theorem State.testStart_eq_comparePlay (s : State) (i : StreamId) : s.testStart i = s.comparePlay i := rfl

theorem State.noteDiscards_eq {s : State} {i : StreamId} {o : Opening} (h : s.opening i = some o) (n : PlaceCounts) :
    s.noteDiscards i n =
      s.retuned i (s.stream i) ((s.noticesOf i).noteDiscard (n.late + n.ahead) o.mask) s.coll := by
  unfold State.noteDiscards StreamNotices.noteDiscard
  split
  · next hnone =>
    rw [hnone]
    exact (s.retuned_same i).symm
  · next hsome =>
    have hstream : s.withStream i (s.stream i) = s := congrArg s.withStreams (PerStream.put_at ..)
    rw [State.raiseNotice_eq h, State.retuned, hstream, decide_eq_true hsome]
    rfl

/-- The state of a classified bundle's claim before its answer, by the Ring Store and the counts the samples leave. -/
def State.bundled (s : State) (q : BundleRequest) (o : Opening) (r : RingStore) (n : PlaceCounts) : State :=
  (s.withRing r).retuned q.stream
    { s.stream q.stream with
      opening := some (o.afterBundle q n.placed).afterPlay
      counters := (s.counters q.stream).countPlaced n }
    (((s.noticesOf q.stream).noteState (o.afterBundle q n.placed).plays o.mask).noteDiscard (n.late + n.ahead) o.mask) s.coll

theorem State.stream_bundled_self (s : State) (q : BundleRequest) (o : Opening) (r : RingStore) (n : PlaceCounts) :
    (s.bundled q o r n).stream q.stream = { s.stream q.stream with
      opening := some (o.afterBundle q n.placed).afterPlay, counters := (s.counters q.stream).countPlaced n } :=
  State.stream_retuned_self ..

theorem State.stream_bundled_ne (s : State) {q : BundleRequest} (o : Opening) (r : RingStore) (n : PlaceCounts) {j : StreamId}
    (h : j ≠ q.stream) : (s.bundled q o r n).stream j = s.stream j :=
  State.stream_retuned_ne (s.withRing r) q.stream _ _ _ h

/-- Steps (1) to (4) of R40 write the ring, the record and the notice cells of the stream; step (5) answers. -/
theorem State.classifyBundle_eq (s : State) (f : Frame) (q : BundleRequest) (o : Opening) :
    s.classifyBundle f q o =
      (s.bundled q o (s.classified q o).2 (s.classified q o).1).acknowledge f q.stream .done (s.classified q o).1 := by
  rw [State.classifyBundle, State.placeBundle_eq, State.testStart_eq_comparePlay,
    State.comparePlay_eq (o := o.afterBundle q (s.classified q o).1.placed) (by simp), State.retuned_retuned,
    State.noteDiscards_eq (o := (o.afterBundle q (s.classified q o).1.placed).afterPlay) (by simp), State.retuned_retuned]
  simp only [State.stream_retuned_self, State.noticesOf_retuned_self, State.retuned_coll]
  rfl

/-- A classified bundle, whole: its claim and its answer. -/
theorem State.classifies.exec_eq {s : State} {f : Frame} {rest : List Frame} {q : BundleRequest} {o : Opening}
    (h : s.classifies f rest q o) :
    exec .bundle s = .next (((s.without rest).bundled q o (s.classified q o).2 (s.classified q o).1).acknowledge f q.stream
      .done (s.classified q o).1) := by
  obtain ⟨htake, hk, hq, ho, hswept, hdrain, -, -⟩ := h
  rw [htake.exec_bundle hk, handleBundle_classifies (s := s.beginHandling f) hq ho hswept hdrain, State.classifyBundle_eq,
    State.acknowledge_endHandling, ← State.without_of_beginHandling htake]
  rfl

/-- Settles O43: the claim that State.classifies.exec_eq gives, its counts those of the classes. -/
theorem bundleClassifiedInOneClaim : Obligations.BundleClassifiedInOneClaim := by
  intro s f rest q o h pos placed duplicate late ahead plays phase c
  have hexec := h.exec_eq
  obtain ⟨⟨-, -, hidle, -, -⟩, hk, hq, -, -, -, hshape, hnodup⟩ := h
  have hcounts : (s.classified q o).1 = { placed, duplicate, late, ahead } :=
    State.classified_counts hshape hnodup (parseBundle_length hq)
  have htotal := s.total_classified q o
  rw [hcounts] at hexec htotal
  have hstream := (s.without rest).stream_bundled_self q o (s.classified q o).2 { placed, duplicate, late, ahead }
  rw [State.acknowledge_eq hk hq (status := .done) nofun, hstream, State.ite_queued] at hexec
  refine ⟨htotal, _, hexec, (congrArg StreamRec.opening hstream :), (congrArg StreamRec.generation hstream :),
    (congrArg StreamRec.counters hstream :), fun j hj => ?_, rfl, rfl, rfl, rfl, rfl, hidle, rfl, rfl, rfl, rfl, rfl, rfl, rfl⟩
  exact (s.without rest).stream_bundled_ne o _ _ hj

end Sys2Proof.Machine
end

section
/-! SUPPORT. Answers to requests that name no stream (R147, R161). -/

namespace Sys2Proof.Machine

/-- An answer to a request that names no stream carries FFH (R161). -/
theorem replyFor_unnamed {f : Frame} {k : Byte} (hk : kindOf f = k) (hnames : namesStream k = false) (status : Status)
    (result : ReplyResult) : replyFor f status result = ⟨tagOf f, k, status, 0xFF, result⟩ := by
  simp [replyFor, replyStream, hk, hnames]

/-- A frame that names no stream, answered with one reply. -/
theorem handleHead_unnamed {s : State} {f : Frame} {rest : List Frame} {c : Instr} {k : Byte}
    {handle : Frame → State → State} {status : Status} {result : ReplyResult} (h : s.canTake f rest)
    (hc : frameCommand f = c) (hk : kindOf f = k) (hnames : namesStream k = false)
    (hh : handle f (s.beginHandling f) = (s.beginHandling f).replyTo f status result) :
    handleHead c handle s = .next ((s.without rest).queued ⟨tagOf f, k, status, 0xFF, result⟩) := by
  rw [handleHead_replies h hc hh, replyFor_unnamed hk hnames]

end Sys2Proof.Machine
end

section
/-! SUPPORT. STAGE (R61, R62): the slot entries read, the checks in order, and the staged plan written whole. -/

namespace Sys2Proof.Machine

/-! ## Slot entries -/

/-- The slot entry that a good byte of a STAGE body is (R57, R160). -/
def slotEntry (b : Byte) : PlanEntry := if b = 0xFF then .idle else .stream (Fin.ofNat 64 b.toNat)

/-- A byte that is no slot entry (R61 (4)). -/
def badEntry (b : Byte) : Prop := 64 ≤ b.toNat ∧ b ≠ 0xFF

theorem planEntryOf_good {b : Byte} (h : ¬ badEntry b) : planEntryOf b = some (slotEntry b) := by
  unfold planEntryOf slotEntry
  split
  · rfl
  · next hne =>
    have hlt : b.toNat < 64 := Nat.not_le.1 fun hbig => h ⟨hbig, hne⟩
    rw [streamOf_eq_some (i := Fin.ofNat 64 b.toNat) (Nat.mod_eq_of_lt hlt).symm]
    rfl

theorem planEntryOf_bad {b : Byte} (h : badEntry b) : planEntryOf b = none := by
  rw [planEntryOf, if_neg h.2, streamOf_eq_none h.1]
  rfl

/-- Good bytes are read entry by entry, in order (R62). -/
theorem planOf_good {entries : List Byte} (h : ∀ b ∈ entries, ¬ badEntry b) :
    planOf entries = some (entries.map slotEntry) := by
  induction entries with
  | nil => rfl
  | cons b entries ih =>
    rw [List.forall_mem_cons] at h
    simp only [planOf, planEntryOf_good h.1, ih h.2, List.map_cons]

theorem planOf_bad {entries : List Byte} (h : ∃ b ∈ entries, badEntry b) : planOf entries = none := by
  induction entries with
  | nil => simp at h
  | cons b entries ih =>
    rw [List.exists_mem_cons_iff] at h
    unfold planOf
    rcases h with hb | hrest
    · rw [planEntryOf_bad hb]
    · rw [ih hrest]
      cases planEntryOf b <;> rfl

theorem slotEntry_eq_stream_iff {b : Byte} (h : ¬ badEntry b) (i : StreamId) :
    slotEntry b = .stream i ↔ b = byteOf i.val := by
  have hi : (byteOf i.val).toNat = i.val := Nat.mod_eq_of_lt (i.isLt.trans (by decide))
  unfold slotEntry
  split
  · next hidle =>
    refine iff_of_false nofun fun hb => ?_
    have h255 : i.val = 255 := by rw [← hi, ← hb, hidle]; rfl
    omega
  · next hne =>
    have hlt : b.toNat < 64 := Nat.not_le.1 fun hbig => h ⟨hbig, hne⟩
    rw [PlanEntry.stream.injEq, Fin.ext_iff, Fin.val_ofNat, Nat.mod_eq_of_lt hlt, ← BitVec.toNat_inj, hi]

/-- A stream stands in as many slots of the plan as its number stands in the body (R58). -/
theorem slotsNaming_map_slotEntry {entries : List Byte} (h : ∀ b ∈ entries, ¬ badEntry b) (i : StreamId) :
    slotsNaming (entries.map slotEntry) i = entries.count (byteOf i.val) := by
  rw [slotsNaming, List.count, List.count, List.countP_map]
  refine List.countP_congr fun b hb => ?_
  simpa using slotEntry_eq_stream_iff (h b hb) i

/-! ## The checks of R61 (3) to (6) -/

/-- The entries of a STAGE fail one of the checks (3) to (6) of R61. -/
def stageBad (entries : List Byte) (period : Nat) : Prop :=
  entries.length = 0 ∨ 96 < entries.length ∨ (∃ b ∈ entries, badEntry b) ∨
    (∃ i : StreamId, 8 < entries.count (byteOf i.val)) ∨ period < 4 + 2 * entries.length + 8

theorem withinRepetition_iff (p : Plan) : withinRepetition p = true ↔ ∀ i, slotsNaming p i ≤ 8 := by
  simp [withinRepetition, mem_allStreams]

/-- Good entries become the staged plan if their number, their repetitions and the period allow it (R61). -/
theorem stagePlan_of_entries {entries : List Byte} (h : ∀ b ∈ entries, ¬ badEntry b) (period : Nat) :
    stagePlan entries period =
      if (1 ≤ entries.length ∧ entries.length ≤ 96) ∧ (∀ i : StreamId, entries.count (byteOf i.val) ≤ 8) ∧
        4 + 2 * entries.length + 8 ≤ period then some (entries.map slotEntry) else none := by
  simp only [stagePlan, planOf_good h, withinRepetition_iff, slotsNaming_map_slotEntry h, fitsPeriod_iff, List.length_map,
    ite_and]

theorem stagePlan_badEntry {entries : List Byte} (h : ∃ b ∈ entries, badEntry b) (period : Nat) :
    stagePlan entries period = none := by
  simp [stagePlan, planOf_bad h]

theorem stagePlan_good {entries : List Byte} {period : Nat} (h : ¬ stageBad entries period) :
    stagePlan entries period = some (entries.map slotEntry) := by
  simp only [stageBad, not_or, not_exists, not_and, Nat.not_lt] at h
  obtain ⟨hsome, hmany, hgood, hrepeats, hfits⟩ := h
  rw [stagePlan_of_entries hgood, if_pos ⟨⟨Nat.pos_of_ne_zero hsome, hmany⟩, hrepeats, hfits⟩]

theorem stagePlan_bad {entries : List Byte} {period : Nat} (h : stageBad entries period) :
    stagePlan entries period = none := by
  by_cases hentry : ∃ b ∈ entries, badEntry b
  · exact stagePlan_badEntry hentry period
  · have hgood : ∀ b ∈ entries, ¬ badEntry b := fun b hb hbad => hentry ⟨b, hb, hbad⟩
    rw [stagePlan_of_entries hgood, if_neg]
    rintro ⟨⟨hsome, hmany⟩, hrepeats, hfits⟩
    rcases h with hzero | hover | hbad | ⟨i, hi⟩ | hshort
    · omega
    · omega
    · exact hentry hbad
    · exact Nat.not_lt.2 (hrepeats i) hi
    · omega

/-! ## The body and the row -/

/-- The body of a STAGE holds exactly as many entries as its slot count says (R160). -/
theorem parseStage_eq (f : Frame) :
    parseStage f = if f.length = 3 + (byteAt f 2).toNat then some (f.drop 3) else none := by
  unfold parseStage
  split
  · next a b n entries =>
    have hlength : (a :: b :: n :: entries).length = 3 + n.toNat ↔ entries.length = n.toNat := by
      simp only [List.length_cons]
      omega
    exact if_congr hlength.symm rfl rfl
  · next hform =>
    split
    · next hlength =>
      match f, hlength with
      | a :: b :: n :: entries, _ => exact absurd rfl (hform a b n entries)
    · rfl

theorem formed_parseStage {f : Frame} (htag : tagOf f ≠ 0) (hl : f.length = 3 + (byteAt f 2).toNat) :
    formed parseStage f = some (f.drop 3) := by
  rw [formed_of_tag _ htag, parseStage_eq, if_pos hl]

theorem formed_parseStage_none {f : Frame} (h : tagOf f = 0 ∨ f.length ≠ 3 + (byteAt f 2).toNat) :
    formed parseStage f = none :=
  formed_none (h.imp_right fun hl => by rw [parseStage_eq, if_neg hl])

theorem frameCommand_stage {f : Frame} (h : kindOf f = 0x09) : frameCommand f = .stage := by
  unfold frameCommand; rw [h]; rfl

/-! ## The handling -/

theorem handleStage_badForm {f : Frame} (h : tagOf f = 0 ∨ f.length ≠ 3 + (byteAt f 2).toNat) (s : State) :
    handleStage f s = s.refuse f .badForm := by
  simp [handleStage, formed_parseStage_none h]

section Formed

variable {s : State} {f : Frame} (htag : tagOf f ≠ 0) (hl : f.length = 3 + (byteAt f 2).toNat)

include htag hl

theorem handleStage_busy (hpending : s.plans.swapPending = true) : handleStage f s = s.refuse f .busy := by
  simp [handleStage, formed_parseStage htag hl, hpending]

theorem handleStage_badValue (hidle : s.plans.swapPending = false) (hbad : stageBad (f.drop 3) s.bus.period) :
    handleStage f s = s.refuse f .badValue := by
  simp [handleStage, formed_parseStage htag hl, hidle, stagePlan_bad hbad]

theorem handleStage_accepted (hidle : s.plans.swapPending = false) (hgood : ¬ stageBad (f.drop 3) s.bus.period) :
    handleStage f s = (s.withPlans { s.plans with staged := (f.drop 3).map slotEntry }).replyTo f .done
      (.slotCount (byteAt f 2).toNat) := by
  have hcount : ((f.drop 3).map slotEntry).length = (byteAt f 2).toNat := by
    rw [List.length_map, List.length_drop]
    omega
  simp only [handleStage, formed_parseStage htag hl, hidle, Bool.false_eq_true, if_false, stagePlan_good hgood, hcount]

end Formed

/-- A change of the plans answered with one reply, the frame gone and its handling ended. -/
theorem State.withPlans_replyTo_endHandling {s : State} {f : Frame} {rest : List Frame} (h : s.canTake f rest)
    (p : PlanStore) (status : Status) (result : ReplyResult) :
    (((s.beginHandling f).withPlans p).replyTo f status result).endHandling =
      ((s.without rest).withPlans p).queued (replyFor f status result) := by
  rw [← State.without_of_beginHandling h]
  rfl

/-- Settles O28: the checks of R61 in order; with all of them passed the entries become the staged plan. -/
theorem stageWritesStagedPlan : Obligations.StageWritesStagedPlan := by
  intro s f rest h hk n entries bad
  have hc := frameCommand_stage hk
  have hbad (hl : f.length = 3 + n) : bad ↔ stageBad entries s.bus.period := by
    have hcount : entries.length = n := by
      rw [List.length_drop]
      omega
    unfold stageBad
    rw [hcount]
    rfl
  refine ⟨fun hform => handleHead_badForm h hc hk (handleStage_badForm hform _), fun htag hl hpending => ?_,
    fun htag hl hidle hfails => ?_, fun htag hl hidle hpasses => ?_⟩
  · exact handleHead_unnamed h hc hk rfl (handleStage_busy htag hl hpending)
  · exact handleHead_unnamed h hc hk rfl (handleStage_badValue htag hl hidle ((hbad hl).1 hfails))
  · have hgood : ¬ stageBad entries s.bus.period := fun hfails => hpasses ((hbad hl).2 hfails)
    show handleHead .stage handleStage s = _
    rw [handleHead_of_canTake h hc, handleStage_accepted (s := s.beginHandling f) htag hl hidle hgood,
      State.withPlans_replyTo_endHandling h, replyFor_unnamed hk rfl]
    rfl

end Sys2Proof.Machine
end

section
/-! SUPPORT. SWAP (R63 to R65, R68): the checks in order, and the swap deferred or applied at once. -/

namespace Sys2Proof.Machine

/-! ## The body and the row -/

/-- The body of a request without fields is the kind and the tag. -/
theorem parseBare_eq (f : Frame) : parseBare f = if f.length = 2 then some () else none := by
  unfold parseBare
  split
  · rfl
  · next hform =>
    split
    · next hlength =>
      obtain ⟨a, b, rfl⟩ := List.length_eq_two.1 hlength
      exact absurd rfl (hform a b)
    · rfl

theorem formed_parseBare {f : Frame} (htag : tagOf f ≠ 0) (hl : f.length = 2) : formed parseBare f = some () := by
  rw [formed_of_tag _ htag, parseBare_eq, if_pos hl]

theorem formed_parseBare_none {f : Frame} (h : tagOf f = 0 ∨ f.length ≠ 2) : formed parseBare f = none :=
  formed_none (h.imp_right fun hl => by rw [parseBare_eq, if_neg hl])

theorem frameCommand_swap {f : Frame} (h : kindOf f = 0x0A) : frameCommand f = .swap := by
  unfold frameCommand; rw [h]; rfl

/-! ## The checks of R63, each with those before it passed -/

theorem handleSwap_badForm {f : Frame} (h : tagOf f = 0 ∨ f.length ≠ 2) (s : State) :
    handleSwap f s = s.refuse f .badForm := by
  simp [handleSwap, formed_parseBare_none h]

section Formed

variable {s : State} {f : Frame} (htag : tagOf f ≠ 0) (hl : f.length = 2)

include htag hl

theorem handleSwap_busy (hpending : s.plans.swapPending = true) : handleSwap f s = s.refuse f .busy := by
  simp [handleSwap, formed_parseBare htag hl, hpending]

theorem handleSwap_nothingStaged (hidle : s.plans.swapPending = false) (hstaged : s.plans.staged = []) :
    handleSwap f s = s.refuse f .wrongState := by
  simp [handleSwap, formed_parseBare htag hl, hidle, hstaged]

theorem handleSwap_tableFull (hidle : s.plans.swapPending = false) (hstaged : s.plans.staged ≠ [])
    (hruns : s.bus.state ≠ .stopped) (hfull : 8 ≤ s.req.pendingTable.length) :
    handleSwap f s = s.refuse f .tableFull := by
  simp [handleSwap, formed_parseBare htag hl, hidle, hstaged, hruns, s.req.tableFull_iff.2 hfull]

theorem handleSwap_deferred (hidle : s.plans.swapPending = false) (hstaged : s.plans.staged ≠ [])
    (hruns : s.bus.state ≠ .stopped) (hroom : s.req.pendingTable.length < 8) : handleSwap f s = s.swapLater f := by
  have hnotFull : ¬ s.req.tableFull = true := fun hfull => Nat.not_le.2 hroom (s.req.tableFull_iff.1 hfull)
  simp [handleSwap, formed_parseBare htag hl, hidle, hstaged, hruns, hnotFull]

theorem handleSwap_applied (hidle : s.plans.swapPending = false) (hstaged : s.plans.staged ≠ [])
    (hstopped : s.bus.state = .stopped) : handleSwap f s = s.swapNow f := by
  simp [handleSwap, formed_parseBare htag hl, hidle, hstaged, hstopped]

end Formed

/-! ## A SWAP that is accepted -/

/-- A swap with no stream DRAINING changes the plans and the counts of active slots only (R68). -/
theorem State.applySwap_noDrains {s : State} (h : s.noDrains) :
    s.applySwap = { s with
      plans := { s.plans with active := s.plans.staged, staged := [] }
      streams := PerStream.tabulate fun j =>
        { s.stream j with opening := (s.opening j).map (·.recounted s.plans.staged j) } } := by
  have hkeeps : ∀ i, s.losesSlots i = false := fun i => by simp [State.losesSlots, h i]
  obtain ⟨-, -, -, -, -, -, -, -, -, -, -, -, hswap⟩ := s.applySwap_spec
  rw [hswap hkeeps]
  rfl

/-- A deferred SWAP with the frame gone and its handling ended (R65). -/
theorem State.swapLater_endHandling {s : State} {f : Frame} {rest : List Frame} (h : s.canTake f rest) :
    ((s.beginHandling f).swapLater f).endHandling =
      State.entered { s.without rest with plans := { s.plans with swapPending := true } } ⟨tagOf f, .swap⟩ := by
  rw [← State.without_of_beginHandling h]
  rfl

/-- A SWAP applied at once with no stream DRAINING, the frame gone and its handling ended (R64). -/
theorem State.swapNow_endHandling {s : State} {f : Frame} {rest : List Frame} (h : s.canTake f rest)
    (hk : kindOf f = 0x0A) (hidle : s.plans.swapPending = false) (hdrains : s.noDrains) :
    ((s.beginHandling f).swapNow f).endHandling = State.queued
      { s.without rest with
        plans := { active := s.plans.staged, staged := [], swapPending := false }
        streams := PerStream.tabulate fun j =>
          { s.stream j with opening := (s.opening j).map (·.recounted s.plans.staged j) } }
      ⟨tagOf f, 0x0A, .done, 0xFF, .swapped s.plans.staged.length none⟩ := by
  have hdrains' : (s.beginHandling f).noDrains := hdrains
  rw [State.swapNow, State.applySwap_noDrains hdrains', State.replyTo, replyFor_unnamed hk rfl, ← hidle,
    ← State.without_of_beginHandling h]
  rfl

/-- Settles O29: each check of R63 in order, then a SWAP deferred or applied at once. -/
theorem swapAppliedOrDeferred : Obligations.SwapAppliedOrDeferred := by
  intro s f rest h hk
  have hc := frameCommand_swap hk
  refine ⟨fun hbad => handleHead_badForm h hc hk (handleSwap_badForm hbad _), fun htag hl =>
    ⟨fun hpending => ?_, fun hidle hstaged => ?_, fun hidle hstaged =>
      ⟨fun hruns hfull => ?_, fun hruns hroom => ?_, fun hstopped hdrains => ?_⟩⟩⟩
  · exact handleHead_unnamed h hc hk rfl (handleSwap_busy htag hl hpending)
  · exact handleHead_unnamed h hc hk rfl (handleSwap_nothingStaged htag hl hidle hstaged)
  · exact handleHead_unnamed h hc hk rfl (handleSwap_tableFull htag hl hidle hstaged hruns hfull)
  · show handleHead .swap handleSwap s = _
    rw [handleHead_of_canTake h hc, handleSwap_deferred (s := s.beginHandling f) htag hl hidle hstaged hruns hroom,
      State.swapLater_endHandling h]
  · show handleHead .swap handleSwap s = _
    rw [handleHead_of_canTake h hc, handleSwap_applied (s := s.beginHandling f) htag hl hidle hstaged hstopped,
      State.swapNow_endHandling h hk hidle hdrains]

end Sys2Proof.Machine
end

section
/-! SUPPORT. The cycle-start event (R66, R73, R74): when it is due, and what it does with a pending swap and without. -/

namespace Sys2Proof.Machine

theorem exec_cycleStart_due {s : State} {time : Nat} (h : s.inService) (htimer : s.bus.cycleTimer = some time)
    (hstate : s.bus.state = .running) (hgap : s.bus.inProgress = false) :
    exec .cycleStart s = .next (s.beginCycle time) := by
  have hdue : (s.live && s.bus.cycleDue) = true := by
    simp [s.live_iff.2 h, CycleEngine.cycleDue, hstate, hgap]
  show execCycleStart s = _
  simp only [execCycleStart, htimer, hdue, State.onlyIf_true]

/-- Without an expiry to come, on a bus that is not RUNNING, or inside a cycle, the event is not due (log 1). -/
theorem exec_cycleStart_notDue {s : State}
    (h : s.bus.cycleTimer = none ∨ s.bus.state ≠ .running ∨ s.bus.inProgress = true) : exec .cycleStart s = .next s := by
  show execCycleStart s = _
  unfold execCycleStart
  cases htimer : s.bus.cycleTimer with
  | none => rfl
  | some time =>
    have hnotDue : s.bus.cycleDue = false := by
      rcases h with hnone | hstate | hcycle
      · simp [htimer] at hnone
      · simp [CycleEngine.cycleDue, hstate]
      · simp [CycleEngine.cycleDue, hcycle]
    simp only [hnotDue, Bool.and_false, State.onlyIf_false]

theorem State.beginCycle_noSwap {s : State} (h : s.plans.swapPending = false) (time : Nat) :
    s.beginCycle time = s.withBus (s.bus.begun time s.plans.active.length) := by
  simp only [State.beginCycle, State.settleSwap_none h]

/-- The cycle of a pending swap begins on the Cycle Engine as it was, with the slots of the plan that was staged (R66, R74). -/
theorem State.beginCycle_swap {s : State} (h : s.plans.swapPending = true) (time : Nat) :
    s.beginCycle time =
      (s.settleSwap (some s.bus.nextNumber)).withBus (s.bus.begun time s.plans.staged.length) := by
  simp only [State.beginCycle, State.settleSwap_bus, State.settleSwap_plans, h, if_true]

/-- The cycle-start frame (R164). -/
theorem BusFrame.cycleStart_bytes {high low c1 c0 : Byte} (h : c1 ++ c0 = crc16 [0x10, high, low]) :
    (BusFrame.cycleStart (high ++ low)).bytes = [0x10, high, low, c1, c0] := by
  have hfields : (BusFrame.cycleStart (high ++ low)).fields = [0x10, high, low] :=
    congrArg (0x10 :: ·) (bytes16_append high low)
  rw [BusFrame.bytes, hfields, ← h, bytes16_append]
  rfl

/-- Settles O33: an event that is due settles a pending swap and begins the cycle. -/
theorem cycleStartAppliesSwapAndBeginsCycle : Obligations.CycleStartAppliesSwapAndBeginsCycle := by
  intro s h number begun
  refine ⟨fun time htimer hstate hgap => ⟨fun hidle => ?_, fun hpending => ?_⟩, exec_cycleStart_notDue,
    fun high low c1 c0 => BusFrame.cycleStart_bytes⟩
  · rw [exec_cycleStart_due h htimer hstate hgap, State.beginCycle_noSwap hidle]
    rfl
  · have hexec := exec_cycleStart_due h htimer hstate hgap
    rw [State.beginCycle_swap hpending] at hexec
    obtain ⟨hplans, hopening, hkept, hreplies, htable, -, hlink, hlinkCell, hhandling, hclock, hrst, hqueue, hnone⟩ :=
      State.settleSwap_spec hpending (some number)
    exact ⟨_, _, hexec, State.settleSwap_swapsTo hpending _, rfl, hplans, hopening, hkept, hreplies, htable, hnone, hlink,
      hlinkCell, hhandling, hclock, hrst, hqueue⟩

end Sys2Proof.Machine
end

section
/-! SUPPORT. START (R72) and PERIOD (R86): the checks in order, and the Cycle Engine that an accepted one leaves. -/

namespace Sys2Proof.Machine

/-! ## The rows and the body of a PERIOD -/

theorem frameCommand_start {f : Frame} (h : kindOf f = 0x0B) : frameCommand f = .start := by
  unfold frameCommand; rw [h]; rfl

theorem frameCommand_period {f : Frame} (h : kindOf f = 0x0D) : frameCommand f = .period := by
  unfold frameCommand; rw [h]; rfl

/-- The body of a PERIOD is the kind, the tag and the two bytes of the period. -/
theorem parsePeriod_eq (f : Frame) :
    parsePeriod f = if f.length = 4 then some (be16 (byteAt f 2) (byteAt f 3)).toNat else none := by
  unfold parsePeriod
  split
  · rfl
  · next hform =>
    split
    · next hlength =>
      match f, hlength with
      | [a, b, h, l], _ => exact absurd rfl (hform a b h l)
    · rfl

theorem formed_parsePeriod {f : Frame} (htag : tagOf f ≠ 0) (hl : f.length = 4) :
    formed parsePeriod f = some (be16 (byteAt f 2) (byteAt f 3)).toNat := by
  rw [formed_of_tag _ htag, parsePeriod_eq, if_pos hl]

theorem formed_parsePeriod_none {f : Frame} (h : tagOf f = 0 ∨ f.length ≠ 4) : formed parsePeriod f = none :=
  formed_none (h.imp_right fun hl => by rw [parsePeriod_eq, if_neg hl])

/-- A change of the Cycle Engine answered with one reply, the frame gone and its handling ended. -/
theorem State.withBus_replyTo_endHandling {s : State} {f : Frame} {rest : List Frame} (h : s.canTake f rest)
    (b : CycleEngine) (status : Status) (result : ReplyResult) :
    (((s.beginHandling f).withBus b).replyTo f status result).endHandling =
      ((s.without rest).withBus b).queued (replyFor f status result) := by
  rw [← State.without_of_beginHandling h]
  rfl

/-! ## START -/

theorem handleStart_badForm {f : Frame} (h : tagOf f = 0 ∨ f.length ≠ 2) (s : State) :
    handleStart f s = s.refuse f .badForm := by
  simp [handleStart, formed_parseBare_none h]

section Formed

variable {s : State} {f : Frame} (htag : tagOf f ≠ 0) (hl : f.length = 2)

include htag hl

theorem handleStart_busy (hhalting : s.bus.state = .halting) : handleStart f s = s.refuse f .busy := by
  simp [handleStart, formed_parseBare htag hl, hhalting]

theorem handleStart_again (hruns : s.bus.state = .running) :
    handleStart f s = s.replyTo f .done (.started .running s.bus.period) := by
  simp [handleStart, formed_parseBare htag hl, hruns]

theorem handleStart_noPlan (hstopped : s.bus.state = .stopped) (hplan : s.plans.active = []) :
    handleStart f s = s.refuse f .wrongState := by
  simp [handleStart, formed_parseBare htag hl, hstopped, hplan]

theorem handleStart_accepted (hstopped : s.bus.state = .stopped) (hplan : s.plans.active ≠ []) :
    handleStart f s = (s.withBus s.bus.started).replyTo f .done (.started .running s.bus.period) := by
  simp [handleStart, formed_parseBare htag hl, hstopped, hplan]

end Formed

/-- Settles O30: each case of R72 in order; an accepted START leaves the Cycle Engine started. -/
theorem startRunsBus : Obligations.StartRunsBus := by
  intro s f rest h hk
  have hc := frameCommand_start hk
  refine ⟨fun hbad => handleHead_badForm h hc hk (handleStart_badForm hbad _), fun htag hl =>
    ⟨fun hhalting => ?_, fun hruns => ?_, fun hstopped hplan => ?_, fun hstopped hplan => ?_⟩⟩
  · exact handleHead_unnamed h hc hk rfl (handleStart_busy htag hl hhalting)
  · exact handleHead_unnamed h hc hk rfl (handleStart_again htag hl hruns)
  · exact handleHead_unnamed h hc hk rfl (handleStart_noPlan htag hl hstopped hplan)
  · show handleHead .start handleStart s = _
    rw [handleHead_of_canTake h hc, handleStart_accepted (s := s.beginHandling f) htag hl hstopped hplan,
      State.withBus_replyTo_endHandling h, replyFor_unnamed hk rfl]
    rfl

/-! ## PERIOD: the checks (2) to (4) of R86, each with those before it passed -/

section Checks

variable {s : State} {p : Nat}

theorem State.periodRefusal_range (h : p < 100 ∨ 10000 < p) : s.periodRefusal p = some .badValue := if_pos h

theorem State.periodRefusal_runs (hlow : 100 ≤ p) (hhigh : p ≤ 10000) (hruns : s.bus.state ≠ .stopped) :
    s.periodRefusal p = some .busy := by
  rw [State.periodRefusal, if_neg (by omega), if_pos hruns]

/-- A period in its range on a STOPPED bus is refused exactly when one of the plans does not fit it. -/
theorem State.periodRefusal_fit (hlow : 100 ≤ p) (hhigh : p ≤ 10000) (hstopped : s.bus.state = .stopped) :
    s.periodRefusal p =
      if p < 4 + 2 * s.plans.active.length + 8 ∨ p < 4 + 2 * s.plans.staged.length + 8 then some .badValue else none := by
  rw [State.periodRefusal, if_neg (by omega), if_neg (by simp [hstopped])]
  refine if_congr ?_ rfl rfl
  simp [fitsPeriod]

end Checks

theorem handlePeriod_badForm {f : Frame} (h : tagOf f = 0 ∨ f.length ≠ 4) (s : State) :
    handlePeriod f s = s.refuse f .badForm := by
  simp [handlePeriod, formed_parsePeriod_none h]

section Formed

variable {s : State} {f : Frame} {p : Nat} (htag : tagOf f ≠ 0) (hl : f.length = 4)
  (hp : (be16 (byteAt f 2) (byteAt f 3)).toNat = p)

include htag hl hp

theorem handlePeriod_refused {status : Status} (hrefused : s.periodRefusal p = some status) :
    handlePeriod f s = s.refuse f status := by
  simp [handlePeriod, formed_parsePeriod htag hl, hp, hrefused]

theorem handlePeriod_accepted (hpasses : s.periodRefusal p = none) :
    handlePeriod f s = (s.withBus { s.bus with period := p }).replyTo f .done (.period p) := by
  simp [handlePeriod, formed_parsePeriod htag hl, hp, hpasses]

end Formed

/-- Settles O32: the first check of R86 that fails gives the status; with all passed the period is set. -/
theorem periodSetWhileStopped : Obligations.PeriodSetWhileStopped := by
  intro s f rest h hk p
  have hc := frameCommand_period hk
  have hrefused {status : Status} (htag : tagOf f ≠ 0) (hl : f.length = 4)
      (hstatus : (s.beginHandling f).periodRefusal p = some status) :
      exec .period s = .next ((s.without rest).queued ⟨tagOf f, 0x0D, status, 0xFF, .none⟩) :=
    handleHead_unnamed h hc hk rfl (handlePeriod_refused htag hl rfl hstatus)
  refine ⟨fun hbad => handleHead_badForm h hc hk (handlePeriod_badForm hbad _), fun htag hl =>
    ⟨fun hrange => ?_, fun hlow hhigh hruns => ?_, fun hlow hhigh hstopped =>
      ⟨fun hlong => ?_, fun hactive hstaged => ?_⟩⟩⟩
  · exact hrefused htag hl (State.periodRefusal_range hrange)
  · exact hrefused htag hl (State.periodRefusal_runs hlow hhigh hruns)
  · exact hrefused htag hl ((State.periodRefusal_fit hlow hhigh hstopped).trans (if_pos hlong))
  · have hfits := not_or.2 ⟨Nat.not_lt.2 hactive, Nat.not_lt.2 hstaged⟩
    have hpasses : (s.beginHandling f).periodRefusal p = none :=
      (State.periodRefusal_fit hlow hhigh hstopped).trans (if_neg hfits)
    show handleHead .period handlePeriod s = _
    rw [handleHead_of_canTake h hc, handlePeriod_accepted htag hl rfl hpasses, State.withBus_replyTo_endHandling h,
      replyFor_unnamed hk rfl]
    rfl

end Sys2Proof.Machine
end

section
/-! SUPPORT. HALT (R83 to R85): the checks in order, the stop of the bus in the gap, and the answer deferred to the end of the
cycle. -/

namespace Sys2Proof.Machine

theorem frameCommand_halt {f : Frame} (h : kindOf f = 0x0C) : frameCommand f = .halt := by
  unfold frameCommand; rw [h]; rfl

/-! ## The checks of R83, each with those before it passed -/

theorem handleHalt_badForm {f : Frame} (h : tagOf f = 0 ∨ f.length ≠ 2) (s : State) :
    handleHalt f s = s.refuse f .badForm := by
  simp [handleHalt, formed_parseBare_none h]

section Formed

variable {s : State} {f : Frame} (htag : tagOf f ≠ 0) (hl : f.length = 2)

include htag hl

theorem handleHalt_stopped (hstopped : s.bus.state = .stopped) : handleHalt f s = s.replyTo f .done (.bus .stopped) := by
  simp [handleHalt, formed_parseBare htag hl, hstopped]

theorem handleHalt_busy (hhalting : s.bus.state = .halting) : handleHalt f s = s.refuse f .busy := by
  simp [handleHalt, formed_parseBare htag hl, hhalting]

theorem handleHalt_gap (hruns : s.bus.state = .running) (hgap : s.bus.inProgress = false) :
    handleHalt f s = s.haltNow f := by
  simp [handleHalt, formed_parseBare htag hl, hruns, hgap]

theorem handleHalt_tableFull (hruns : s.bus.state = .running) (hcycle : s.bus.inProgress = true)
    (hfull : 8 ≤ s.req.pendingTable.length) : handleHalt f s = s.refuse f .tableFull := by
  simp [handleHalt, formed_parseBare htag hl, hruns, hcycle, s.req.tableFull_iff.2 hfull]

theorem handleHalt_deferred (hruns : s.bus.state = .running) (hcycle : s.bus.inProgress = true)
    (hroom : s.req.pendingTable.length < 8) : handleHalt f s = s.haltLater f := by
  have hnotFull : ¬ s.req.tableFull = true := fun hfull => Nat.not_le.2 hroom (s.req.tableFull_iff.1 hfull)
  simp [handleHalt, formed_parseBare htag hl, hruns, hcycle, hnotFull]

end Formed

/-! ## The stop of the bus, with the handling of the HALT ended -/

theorem State.drainsTo.endHandling {l : List StreamId} {s t : State} (h : State.drainsTo l s t) :
    State.drainsTo l s.endHandling t.endHandling := by
  induction h with
  | none s => exact .none _
  | next s u t i rest o opened closes _ ih => exact .next _ _ _ _ _ o opened closes.endHandling ih

theorem State.swapsTo.endHandling {s t : State} {cycle : Option Half} (h : s.swapsTo cycle t) :
    s.endHandling.swapsTo cycle t.endHandling := by
  obtain ⟨u, hdrains, rfl⟩ := h
  exact ⟨u.endHandling, hdrains.endHandling, rfl⟩

/-- What stopsTo says of two states holds with the handling of both ended. -/
theorem State.stopsTo.endHandling {s t : State} (h : s.stopsTo t) : s.endHandling.stopsTo t.endHandling := by
  obtain ⟨⟨u, hidle, hpending, hdrains⟩, hbus, hplans, hopening, hstream, hreplies, htable, hkept, hlink, hcell, -,
    hpins⟩ := h
  exact ⟨⟨u.endHandling, fun hp => congrArg State.endHandling (hidle hp), fun hp => (hpending hp).endHandling,
    hdrains.endHandling⟩, hbus, hplans, hopening, hstream, hreplies, htable, hkept, hlink, hcell, rfl, hpins⟩

/-- A HALT in the gap: the bus stopped with the frame gone, and the DONE behind the other replies (R83 (4), R85). -/
theorem State.haltNow_endHandling {s : State} {f : Frame} {rest : List Frame} (h : s.canTake f rest) (hk : kindOf f = 0x0C) :
    ∃ t, (s.without rest).stopsTo t ∧
      ((s.beginHandling f).haltNow f).endHandling = t.queued ⟨tagOf f, 0x0C, .done, 0xFF, .bus .stopped⟩ := by
  refine ⟨(s.beginHandling f).stopBus.endHandling, ?_, ?_⟩
  · rw [← State.without_of_beginHandling h]
    exact (State.stopBus_stopsTo _).endHandling
  · unfold State.haltNow
    generalize (s.beginHandling f).stopBus = t
    rw [← replyFor_unnamed hk rfl]
    rfl

/-- A deferred HALT with the frame gone and its handling ended (R84). -/
theorem State.haltLater_endHandling {s : State} {f : Frame} {rest : List Frame} (h : s.canTake f rest) :
    ((s.beginHandling f).haltLater f).endHandling =
      State.entered { s.without rest with bus := { s.bus with state := .halting } } ⟨tagOf f, .halt⟩ := by
  rw [← State.without_of_beginHandling h]
  rfl

/-- Settles O31: each case of R83 in order, then the stop of the bus in the gap or a deferred HALT. -/
theorem haltStopsOrDefers : Obligations.HaltStopsOrDefers := by
  intro s f rest h hk
  have hc := frameCommand_halt hk
  refine ⟨fun hbad => handleHead_badForm h hc hk (handleHalt_badForm hbad _), fun htag hl =>
    ⟨fun hstopped => ?_, fun hhalting => ?_, fun hruns hgap => ?_, fun hruns hcycle hfull => ?_,
      fun hruns hcycle hroom => ?_⟩⟩
  · exact handleHead_unnamed h hc hk rfl (handleHalt_stopped htag hl hstopped)
  · exact handleHead_unnamed h hc hk rfl (handleHalt_busy htag hl hhalting)
  · obtain ⟨t, hstops, hreply⟩ := State.haltNow_endHandling h hk
    refine ⟨t, hstops, ?_⟩
    show handleHead .halt handleHalt s = _
    rw [handleHead_of_canTake h hc, handleHalt_gap (s := s.beginHandling f) htag hl hruns hgap, hreply]
  · exact handleHead_unnamed h hc hk rfl (handleHalt_tableFull htag hl hruns hcycle hfull)
  · show handleHead .halt handleHalt s = _
    rw [handleHead_of_canTake h hc, handleHalt_deferred (s := s.beginHandling f) htag hl hruns hcycle hroom,
      State.haltLater_endHandling h]

end Sys2Proof.Machine
end

section
/-! SUPPORT. The slot event (R75, R76, R90): when it is due, the command frame it drives, and the return window after it (R77,
R164, R165). -/

namespace Sys2Proof.Machine

/-! ## When it is due -/

theorem State.slotDue.inService {s : State} {k : Nat} {e : PlanEntry} (h : s.slotDue k e) : s.inService := by
  obtain ⟨hservice, -⟩ := h
  exact hservice

theorem State.slotDue.runs {s : State} {k : Nat} {e : PlanEntry} (h : s.slotDue k e) :
    exec .slotEvent s = .next (s.runSlot k e) := by
  obtain ⟨hservice, hcycle, hnone, hnext, hentry, n, hcount, hleft⟩ := h
  have hdue : (s.live && s.bus.slotDue) = true := by
    simp [s.live_iff.2 hservice, CycleEngine.slotDue, hcycle, hnone, hnext, hcount, hleft]
  show execSlotEvent s = _
  simp only [execSlotEvent, hnext, hentry, hdue, State.onlyIf_true]

/-! ## What it sends -/

theorem State.runSlot_idle (s : State) (k : Nat) : s.runSlot k .idle = s.withBus (s.bus.sends k .idle none 0 0 0) := rfl

/-- A slot of a CLOSED stream goes as an IDLE slot (R75). -/
theorem State.runSlot_closed {s : State} {i : StreamId} (h : s.opening i = none) (k : Nat) :
    s.runSlot k (.stream i) = s.withBus (s.bus.sends k .idle none 0 0 0) := by
  have hvisited : s.visited i = s := by simp only [State.visited, h]
  have hcommand : s.visitCommand i = .idleFrame := by simp only [State.visitCommand, h]
  rw [State.runSlot, hvisited, hcommand]
  rfl

/-- A slot of a stream that does not play holds the safe value and changes no record (R90). -/
theorem State.runSlot_holds {s : State} {i : StreamId} {o : Opening} (ho : s.opening i = some o)
    (hphase : o.phase = .sweeping ∨ o.phase = .priming ∨ o.phase = .starved) (k : Nat) :
    s.runSlot k (.stream i) =
      s.withBus (s.bus.sends k .hold (some (i, (s.stream i).generation)) o.station o.channel o.safeValue) := by
  have hvisited : s.visited i = s := by
    rcases hphase with hp | hp | hp <;> simp only [State.visited, ho, hp]
  have hcommand : s.visitCommand i = s.commandTo i o .hold o.safeValue := by
    rcases hphase with hp | hp | hp <;> simp only [State.visitCommand, ho, hp]
  rw [State.runSlot, hvisited, hcommand]
  rfl

/-! ## What no visit changes -/

/-- The clock, RST and the waiting commands are the same. -/
structure State.sameService (s t : State) : Prop where
  clockRunning : t.clockRunning = s.clockRunning
  rstLow : t.rstLow = s.rstLow
  pending : t.pending = s.pending

theorem State.sameService.refl (s : State) : s.sameService s := ⟨rfl, rfl, rfl⟩

theorem State.sameService_ite {s t u : State} {c : Prop} [Decidable c] (ht : s.sameService t) (hu : s.sameService u) :
    s.sameService (if c then t else u) := by
  split
  · exact ht
  · exact hu

theorem State.sameService_closeStream (s : State) (i : StreamId) (drainEnded : Bool) :
    s.sameService (s.closeStream i drainEnded) := by
  cases ho : s.opening i with
  | none => rw [State.closeStream_closed ho]; exact .refl s
  | some o =>
    obtain ⟨-, -, -, -, -, -, -, -, -, -, -, -, -, -, -, -, -, -, -, hclock, hrst, hqueue⟩ :=
      State.closeStream_closesTo ho drainEnded
    exact ⟨hclock, hrst, hqueue⟩

theorem State.sameService_staleVisit (s : State) (i : StreamId) (o : Opening) : s.sameService (s.staleVisit i o) := by
  refine State.sameService_ite ?_ ⟨rfl, rfl, rfl⟩
  rw [State.starve_eq]
  exact ⟨rfl, rfl, rfl⟩

theorem State.sameService_consumingVisit (s : State) (i : StreamId) (o : Opening) :
    s.sameService (s.consumingVisit i o) := by
  unfold State.consumingVisit
  split
  · exact ⟨rfl, rfl, rfl⟩
  · next r _ =>
    have hlast := State.sameService_closeStream
      ((s.withRing r).withCounters i ((s.withRing r).counters i).countSubstituted) i true
    have hstale := State.sameService_staleVisit (s.withRing r) i o
    exact State.sameService_ite ⟨hlast.clockRunning, hlast.rstLow, hlast.pending⟩
      ⟨hstale.clockRunning, hstale.rstLow, hstale.pending⟩

theorem State.sameService_visited (s : State) (i : StreamId) : s.sameService (s.visited i) := by
  unfold State.visited
  split
  · exact .refl s
  · next o _ =>
    split
    · exact .refl s
    · exact .refl s
    · exact .refl s
    · exact s.sameService_consumingVisit i o
    · exact s.sameService_consumingVisit i o

theorem State.sameService_runSlot (s : State) (k : Nat) (e : PlanEntry) : s.sameService (s.runSlot k e) := by
  cases e with
  | idle => exact ⟨rfl, rfl, rfl⟩
  | stream i =>
    have hvisited := s.sameService_visited i
    exact ⟨hvisited.clockRunning, hvisited.rstLow, hvisited.pending⟩

/-! ## The frame on the bus, and the return window after it -/

/-- Whatever its entry, a slot event sends one command on the Cycle Engine as it was. -/
theorem State.runSlot_bus (s : State) (k : Nat) (e : PlanEntry) : ∃ c : Command, (s.runSlot k e).bus = s.bus.sent k c := by
  cases e with
  | idle => exact ⟨_, rfl⟩
  | stream i => exact ⟨_, rfl⟩

theorem State.bde_of_sent {s t : State} {k : Nat} {c : Command} (hbus : t.bus = s.bus.sent k c) (hrst : t.rstLow = false)
    (hruns : s.bus.state ≠ .stopped) : t.bde = true := by
  simp [State.bde, hbus, CycleEngine.sent, hrst, hruns]

/-- With the queue empty, the next step lets the frame of a slot event go out (R77, R165; log 17). -/
theorem step_after_sent {s t : State} {k : Nat} {c : Command} (hbus : t.bus = s.bus.sent k c) (hservice : t.inService)
    (hempty : t.pending = []) :
    ∃ u, step t = .next u ∧ u.bde = false ∧ u.bus.windowOpen = true ∧ u.bus.slotInFlight = t.bus.slotInFlight := by
  have hstep : step t = .next t.passTime := by simp only [step, hempty]
  rw [State.passTime_of_inService hservice] at hstep
  refine ⟨_, hstep, (State.bde_eq_false_iff _).2 (.inl rfl), ?_, rfl⟩
  simp [CycleEngine.windowOpen, hbus, CycleEngine.sent]

/-! ## The bytes of a command frame -/

/-- The command frame (R164). -/
theorem BusFrame.command_bytes (kind : CommandKind) (station channel : Nat) {v3 v2 v1 v0 c1 c0 : Byte}
    (h : c1 ++ c0 = crc16 [kind.code, byteOf station, byteOf channel, v3, v2, v1, v0]) :
    (BusFrame.command kind station channel (v3 ++ v2 ++ v1 ++ v0)).bytes =
      [kind.code, byteOf station, byteOf channel, v3, v2, v1, v0] ++ [c1, c0] := by
  have hfields : (BusFrame.command kind station channel (v3 ++ v2 ++ v1 ++ v0)).fields =
      [kind.code, byteOf station, byteOf channel, v3, v2, v1, v0] :=
    congrArg ([kind.code, byteOf station, byteOf channel] ++ ·) (bytes32_append v3 v2 v1 v0)
  rw [BusFrame.bytes, hfields, ← h, bytes16_append]

/-- Settles O34: the entries that send IDLE or HOLD, then the frame that every slot event drives until the queue is empty. -/
theorem slotEventIdlesOrHolds : Obligations.SlotEventIdlesOrHolds := by
  refine ⟨fun s k e hdue => ⟨fun hidle => ?_, fun i hstream => ⟨fun hclosed => ?_, fun o ho hphase => ?_⟩⟩,
    fun s k e hdue => ?_, ?_⟩
  · subst hidle
    rw [hdue.runs, State.runSlot_idle]
    rfl
  · subst hstream
    rw [hdue.runs, State.runSlot_closed hclosed]
    rfl
  · subst hstream
    rw [hdue.runs, State.runSlot_holds ho hphase]
    rfl
  · obtain ⟨c, hbus⟩ := s.runSlot_bus k e
    have hsame := s.sameService_runSlot k e
    obtain ⟨hclock, hrst⟩ := hdue.inService
    refine ⟨_, hdue.runs, ⟨c.kind, c.station, c.channel, c.value, by rw [hbus]; rfl⟩,
      State.bde_of_sent hbus (hsame.rstLow.trans hrst), fun hempty => step_after_sent hbus
        ⟨hsame.clockRunning.trans hclock, hsame.rstLow.trans hrst⟩ (hsame.pending.trans hempty)⟩
  · intro kind station channel v3 v2 v1 v0 c1 c0 fields hcheck
    have hfields : fields = [kind.code, byteOf station, byteOf channel, v3, v2, v1, v0] := by cases kind <;> rfl
    rw [hfields] at hcheck ⊢
    exact BusFrame.command_bytes kind station channel hcheck

end Sys2Proof.Machine
end

section
/-! SUPPORT. What came in a return window, classified (R78, R164). -/

namespace Sys2Proof.Machine

/-- A 16-bit field is the two bytes it is sent as, joined. -/
theorem bytes16_eq_iff (x : Half) (h l : Byte) : bytes16 x = [h, l] ↔ h ++ l = x := by
  constructor
  · intro hbytes
    simp only [bytes16, List.cons.injEq, and_true] at hbytes
    obtain ⟨rfl, rfl⟩ := hbytes
    have hlt := x.isLt
    refine BitVec.eq_of_toNat_eq ((toNat_joined ..).trans ?_)
    simp only [BitVec.extractLsb'_toNat, Nat.shiftRight_eq_div_pow]
    omega
  · rintro rfl
    exact bytes16_append h l

/-- Four bytes join to one value, however they are paired. -/
theorem joinedBytes_assoc (v3 v2 v1 v0 : Byte) : (v3 ++ v2 ++ (v1 ++ v0) : Word) = (v3 ++ v2 ++ v1 ++ v0 : Word) := by
  have hpairs : BitVec.toNat (v3 ++ v2 ++ (v1 ++ v0) : BitVec (8 + 8 + (8 + 8))) =
      (v3.toNat * 2 ^ 8 + v2.toNat) * 2 ^ 16 + (v1.toNat * 2 ^ 8 + v0.toNat) := by
    rw [toNat_joined, toNat_joined, toNat_joined]
  have hbytes : BitVec.toNat (v3 ++ v2 ++ v1 ++ v0 : BitVec (8 + 8 + 8 + 8)) =
      ((v3.toNat * 2 ^ 8 + v2.toNat) * 2 ^ 8 + v1.toNat) * 2 ^ 8 + v0.toNat := by
    rw [toNat_joined, toNat_joined, toNat_joined]
  refine BitVec.eq_of_toNat_eq (hpairs.trans (Eq.trans ?_ hbytes.symm))
  omega

/-- A frame that stops before its ninth byte is CORRUPT. -/
theorem classifyReturn_short (r : SlotRecord) {bytes : List Byte} (h : bytes.length < 9) :
    classifyReturn r (some bytes) = .corrupt := by
  unfold classifyReturn
  split
  · next heq => cases heq
  · next heq =>
    cases heq
    split
    · simp only [List.length_cons] at h
      omega
    · rfl

/-- A frame of nine bytes or more is classified by its first nine: the check, then the address. -/
theorem classifyReturn_frame (r : SlotRecord) (station channel status v3 v2 v1 v0 c1 c0 : Byte) (more : List Byte) :
    classifyReturn r (some (station :: channel :: status :: v3 :: v2 :: v1 :: v0 :: c1 :: c0 :: more)) =
      if c1 ++ c0 = crc16 [station, channel, status, v3, v2, v1, v0] then
        if station.toNat = r.station ∧ channel.toNat = r.channel then .good status (v3 ++ v2 ++ v1 ++ v0) else .alien
      else .corrupt := by
  rw [← joinedBytes_assoc]
  exact if_congr (bytes16_eq_iff ..) rfl rfl

/-- Settles O38: a frame of nine bytes or more by its check and its address, and the two cases with fewer. -/
theorem returnClassifiedByItsCheckAndAddress : Obligations.ReturnClassifiedByItsCheckAndAddress := by
  intro r
  refine ⟨rfl, fun bytes => classifyReturn_short r, ?_⟩
  intro station channel status v3 v2 v1 v0 c1 c0 more fields frame
  have hframe := classifyReturn_frame r station channel status v3 v2 v1 v0 c1 c0 more
  refine ⟨fun hbad => hframe.trans (if_neg hbad), fun hgood haddress => ?_, fun hgood hstation hchannel => ?_⟩
  · exact (hframe.trans (if_pos hgood)).trans (if_neg (not_and_or.2 haddress))
  · exact (hframe.trans (if_pos hgood)).trans (if_pos ⟨hstation, hchannel⟩)

end Sys2Proof.Machine
end

section
/-! SUPPORT. The outcome of a slot (R77, R79, R80): what takes it, and the end of a slot that is not the cycle's last. -/

namespace Sys2Proof.Machine

theorem exec_slotOutcome {s : State} {r : SlotRecord} (hservice : s.inService) (hflies : s.bus.slotInFlight = some r)
    (ret : Option (List Byte)) : exec (.slotOutcome ret) s = .next (s.endSlot r (classifyReturn r ret)) := by
  show execSlotOutcome ret s = _
  simp only [execSlotOutcome, hflies, s.live_iff.2 hservice, State.onlyIf_true]

theorem State.takeOutcome_bus (s : State) (r : SlotRecord) (x : ReturnOutcome) : (s.takeOutcome r x).bus = s.bus :=
  (s.quiet_takeOutcome r x).bus

/-- A slot ends on the Cycle Engine as its outcome found it, and the cycle ends with its last slot (R75, R77). -/
theorem State.endSlot_eq {s : State} {n : Nat} (hcount : s.bus.slotCount = some n) (r : SlotRecord) (x : ReturnOutcome) :
    s.endSlot r x =
      if n ≤ s.bus.nextSlot then ((s.takeOutcome r x).withBus (s.bus.endsSlot r.index)).endCycle
      else (s.takeOutcome r x).withBus (s.bus.endsSlot r.index) := by
  have hbus := s.takeOutcome_bus r x
  have hn : n = s.bus.slotCount.getD 0 := by rw [hcount]; rfl
  unfold State.endSlot
  generalize s.takeOutcome r x = t at hbus ⊢
  rw [hn, ← hbus]
  rfl

theorem State.endSlot_more {s : State} {n : Nat} (hcount : s.bus.slotCount = some n) (hleft : s.bus.nextSlot < n)
    (r : SlotRecord) (x : ReturnOutcome) : s.endSlot r x = (s.takeOutcome r x).withBus (s.bus.endsSlot r.index) :=
  (State.endSlot_eq hcount r x).trans (if_neg (Nat.not_le.2 hleft))

theorem State.endSlot_last {s : State} {n : Nat} (hcount : s.bus.slotCount = some n) (hlast : n ≤ s.bus.nextSlot)
    (r : SlotRecord) (x : ReturnOutcome) :
    s.endSlot r x = ((s.takeOutcome r x).withBus (s.bus.endsSlot r.index)).endCycle :=
  (State.endSlot_eq hcount r x).trans (if_pos hlast)

/-! ## The outcome by the record of the slot (R79, R80) -/

/-- The return record of an outcome (R111). -/
def State.returnRecord (s : State) (slot : Nat) (x : ReturnOutcome) : ReturnRecord :=
  { cycle := s.bus.cycleNumber, slot := slot, outcome := x }

/-- The state after an outcome that stream `i` takes: counted, and its record handed on (R81). -/
def State.collected (s : State) (i : StreamId) (o : Opening) (slot : Nat) (x : ReturnOutcome) : State :=
  (s.markOutcome i o x).handRecord i o.collectBatch (s.returnRecord slot x)

section Taken

variable {s : State} {r : SlotRecord}

theorem State.takeOutcome_silentIdle (hr : r.target = none) : s.takeOutcome r .missing = s := by
  simp [State.takeOutcome, hr]

theorem State.takeOutcome_unsolicited (hr : r.target = none) {x : ReturnOutcome} (hx : x ≠ .missing) :
    s.takeOutcome r x = s.countUnsolicited := by
  simp [State.takeOutcome, hr, hx]

theorem State.takeOutcome_orphan {i : StreamId} {g : Byte} (hr : r.target = some (i, g))
    (horphan : s.opening i = none ∨ (s.stream i).generation ≠ g) (x : ReturnOutcome) :
    s.takeOutcome r x = s.countOrphan := by
  simp only [State.takeOutcome, hr]
  cases ho : s.opening i with
  | none => rfl
  | some o => exact if_neg (horphan.resolve_left (by simp [ho]))

/-- The outcome goes to the open stream that holds the generation of the record (R79). -/
theorem State.takeOutcome_attributed {i : StreamId} {o : Opening} (hr : r.target = some (i, (s.stream i).generation))
    (ho : s.opening i = some o) (x : ReturnOutcome) : s.takeOutcome r x = s.collected i o r.index x := by
  simp only [State.takeOutcome, hr, ho, if_true]
  rfl

end Taken

/-- Settles O39: the slot has one to follow, so it ends after an outcome that only counts. -/
theorem unattributedOutcomeOnlyCounts : Obligations.UnattributedOutcomeOnlyCounts := by
  intro s r ret n hservice hflies hcount hleft
  have hexec : exec (.slotOutcome ret) s =
      .next ((s.takeOutcome r (classifyReturn r ret)).withBus (s.bus.endsSlot r.index)) := by
    rw [exec_slotOutcome hservice hflies, State.endSlot_more hcount hleft]
  refine ⟨fun hr hx => ?_, fun hr hx => ?_, fun i g hr horphan => ?_⟩
  · rw [hexec, hx, State.takeOutcome_silentIdle hr]
    rfl
  · rw [hexec, State.takeOutcome_unsolicited hr hx]
    rfl
  · rw [hexec, State.takeOutcome_orphan hr horphan]
    rfl

end Sys2Proof.Machine
end

section
/-! SUPPORT. An attributed outcome (R81, R82, R112, R113): its counter, the silent run, and the record handed on. -/

namespace Sys2Proof.Machine

/-! ## The parts of an outcome -/

/-- The outcome is a GOOD return (R78). -/
def ReturnOutcome.isGood : ReturnOutcome → Bool
  | .good _ _ => true
  | .missing => false
  | .corrupt => false
  | .alien => false

theorem silentRunAfter_eq (run : Nat) (x : ReturnOutcome) :
    silentRunAfter run x = if x.isGood then 0 else if x = .missing ∧ run < 8 then run + 1 else run := by
  cases x <;> simp [silentRunAfter, ReturnOutcome.isGood]

theorem fallsSilent_eq (run : Nat) (x : ReturnOutcome) : fallsSilent run x = decide (x = .missing ∧ run = 7) := by
  cases x with
  | missing =>
    simp only [fallsSilent, true_and]
    rfl
  | good => simp [fallsSilent]
  | corrupt => simp [fallsSilent]
  | alien => simp [fallsSilent]

/-- One of four counters rises, and no other (R81 (1)). -/
theorem StreamCounters.countOutcome_eq (c : StreamCounters) (x : ReturnOutcome) :
    c.countOutcome x = { c with
      returnsGood := c.returnsGood + (if x.isGood then 1 else 0), missing := c.missing + (if x = .missing then 1 else 0)
      corrupt := c.corrupt + (if x = .corrupt then 1 else 0), alien := c.alien + (if x = .alien then 1 else 0) } := by
  cases x <;> simp [StreamCounters.countOutcome, ReturnOutcome.isGood]

/-- The notice cells of a stream after an outcome: a SILENT raised if its silent run comes from 7 to 8 (R82). -/
def StreamNotices.noteSilent (n : StreamNotices) (o : Opening) (x : ReturnOutcome) : StreamNotices :=
  { n with silent := n.silent.raisedIf (fallsSilent o.silentRun x && o.mask.silent) 1 }

theorem StreamNotices.noteSilent_of_not {n : StreamNotices} {o : Opening} {x : ReturnOutcome}
    (h : fallsSilent o.silentRun x = false) : n.noteSilent o x = n := by
  simp [StreamNotices.noteSilent, h]

/-- The record of a stream with an outcome counted and its silent run moved (R81 (1), R82). -/
def State.markedRecord (s : State) (i : StreamId) (o : Opening) (x : ReturnOutcome) : StreamRec :=
  { s.stream i with
    counters := (s.stream i).counters.countOutcome x
    opening := some { o with silentRun := silentRunAfter o.silentRun x } }

/-- Steps (1) and (2) of R81, whole: one record and its cells. -/
theorem State.markOutcome_eq (s : State) (i : StreamId) (o : Opening) (x : ReturnOutcome) :
    s.markOutcome i o x = s.retuned i (s.markedRecord i o x) ((s.noticesOf i).noteSilent o x) s.coll := by
  have hrecord : (s.withOpening i (some { o with silentRun := silentRunAfter o.silentRun x })).withCounters i
      ((s.counters i).countOutcome x) = s.withStream i (s.markedRecord i o x) := State.withOpening_withCounters ..
  have hopening : (s.withStream i (s.markedRecord i o x)).opening i =
      some { o with silentRun := silentRunAfter o.silentRun x } := by
    rw [State.opening, State.stream_withStream_self, State.markedRecord]
  unfold State.markOutcome
  rw [hrecord]
  simp only
  split
  · next hfalls =>
    rw [State.raiseNotice_eq hopening, StreamNotices.noteSilent, hfalls, Bool.true_and]
    rfl
  · next hstays =>
    rw [StreamNotices.noteSilent_of_not (by simpa using hstays), ← State.withNotices_noticesOf (s.withStream i _) i]
    rfl

theorem State.retuned_withCounters (s : State) (i : StreamId) (r : StreamRec) (n : StreamNotices) (c : StreamCounters)
    (d e : Collector) :
    ((s.retuned i r n d).withCounters i c).withColl e = s.retuned i { r with counters := c } n e := by
  have hput : (s.streams.put i r).put i { r with counters := c } = s.streams.put i { r with counters := c } :=
    PerStream.put_put ..
  unfold State.withCounters
  rw [State.stream_retuned_self]
  show { s with
    streams := (s.streams.put i r).put i { r with counters := c }
    req := { s.req with notices := s.req.notices.put i n }
    coll := e } = _
  rw [hput]
  rfl

/-- The record of a stream after an attributed outcome: the outcome counted, the silent run moved, and collect dropped raised
if the return record is dropped (R81, R112 (3)). -/
def State.outcomeRecord (s : State) (i : StreamId) (o : Opening) (x : ReturnOutcome) : StreamRec :=
  { s.markedRecord i o x with
    counters := { (s.stream i).counters.countOutcome x with
      collectDropped := (s.stream i).counters.collectDropped +
        (if o.collectBatch ≠ 0 ∧ i ∈ s.coll.stallList then 1 else 0) } }

/-- An attributed outcome rewrites one record and its cells, beside the Return Collector (R81). -/
theorem State.collected_eq (s : State) (i : StreamId) (o : Opening) (slot : Nat) (x : ReturnOutcome) :
    s.collected i o slot x = s.retuned i (s.outcomeRecord i o x) ((s.noticesOf i).noteSilent o x)
      (s.collected i o slot x).coll := by
  have hdropped : (s.markedRecord i o x).counters.collectDropped = (s.stream i).counters.collectDropped := by
    rw [State.markedRecord, StreamCounters.countOutcome_eq]
  unfold State.collected
  rw [State.markOutcome_eq]
  obtain ⟨c, d, hhand, hc⟩ := State.handRecord_frame
    (s.retuned i (s.markedRecord i o x) ((s.noticesOf i).noteSilent o x) s.coll) i o.collectBatch (s.returnRecord slot x)
  rw [hhand, State.withColl_coll, State.retuned_withCounters, hc, State.counters_retuned_self, hdropped]
  rfl

/-! ## The return record handed on -/

theorem State.markOutcome_coll (s : State) (i : StreamId) (o : Opening) (x : ReturnOutcome) :
    (s.markOutcome i o x).coll = s.coll := by
  rw [State.markOutcome_eq, State.retuned_coll]

/-- The records of a stream's buffer with the one of an outcome behind them (R111, R112 (2)). -/
def State.recordsAfter (s : State) (i : StreamId) (slot : Nat) (x : ReturnOutcome) : List ReturnRecord :=
  s.coll.buffers.at i ++ [s.returnRecord slot x]

section Handed

variable (s : State) (i : StreamId) (o : Opening) (slot : Nat) (x : ReturnOutcome)

/-- With collection off the Return Collector leaves the record (R112 (1)). -/
theorem State.collected_coll_off (hoff : o.collectBatch = 0) : (s.collected i o slot x).coll = s.coll := by
  rw [State.collected, hoff, State.handRecord_off, State.markOutcome_coll]

variable (hon : o.collectBatch ≠ 0)

include hon

/-- The record of a stalled stream raises its tally (R112 (3)). -/
theorem State.collected_coll_stalled (hstalled : i ∈ s.coll.stallList) :
    (s.collected i o slot x).coll =
      { s.coll with tallies := s.coll.tallies.put i (min (s.coll.tallies.at i + 1) 65535) } := by
  rw [← s.markOutcome_coll i o x] at hstalled ⊢
  rw [State.collected, State.handRecord_stalled hon hstalled, State.withColl_coll]

variable (hfree : i ∉ s.coll.stallList)

include hfree

/-- A record that leaves the buffer short of the batch is kept (R112 (2)). -/
theorem State.collected_coll_kept (hshort : (s.recordsAfter i slot x).length < o.collectBatch) :
    (s.collected i o slot x).coll = { s.coll with buffers := s.coll.buffers.put i (s.recordsAfter i slot x) } := by
  unfold State.recordsAfter at hshort ⊢
  rw [← s.markOutcome_coll i o x] at hfree hshort ⊢
  rw [State.collected, State.handRecord_kept hon hfree _ hshort, State.withColl_coll]

variable (hfull : o.collectBatch ≤ (s.recordsAfter i slot x).length)

include hfull

/-- A full buffer goes out as a report while the report queue has room (R113 (1)). -/
theorem State.collected_coll_forms (hroom : s.coll.queue.length < 12) :
    (s.collected i o slot x).coll = { s.coll with
      buffers := s.coll.buffers.put i [], tallies := s.coll.tallies.put i 0
      queue := s.coll.queue ++
        [{ stream := i, generation := (s.stream i).generation, final := false, dropped := s.coll.tallies.at i
           records := s.recordsAfter i slot x }] } := by
  have hgeneration : ((s.markOutcome i o x).stream i).generation = (s.stream i).generation := by
    rw [State.markOutcome_eq, State.stream_retuned_self]
    rfl
  unfold State.recordsAfter at hfull ⊢
  rw [← s.markOutcome_coll i o x] at hfree hfull hroom ⊢
  rw [State.collected, State.handRecord_forms hon hfree _ hfull hroom, State.withColl_coll, hgeneration]

/-- A full buffer stalls the stream while the report queue is full (R113 (2)). -/
theorem State.collected_coll_stalls (hqueue : 12 ≤ s.coll.queue.length) :
    (s.collected i o slot x).coll = { s.coll with
      buffers := s.coll.buffers.put i (s.recordsAfter i slot x), stallList := s.coll.stallList ++ [i] } := by
  unfold State.recordsAfter at hfull ⊢
  rw [← s.markOutcome_coll i o x] at hfree hfull hqueue ⊢
  rw [State.collected, State.handRecord_stalls hon hfree _ hfull hqueue, State.withColl_coll]

end Handed

/-- Settles O40: the record, the cells and the Return Collector after the outcome, and nothing else but the slot's end. -/
theorem attributedOutcomeCountsAndCollects : Obligations.AttributedOutcomeCountsAndCollects := by
  intro s r ret n i o hservice hflies hcount hleft hr ho x c isGood stalled records
  have hexec : exec (.slotOutcome ret) s = .next ((s.collected i o r.index x).withBus (s.bus.endsSlot r.index)) := by
    rw [exec_slotOutcome hservice hflies, State.endSlot_more hcount hleft, State.takeOutcome_attributed hr ho]
  have hgood : isGood = x.isGood := rfl
  have hwhole := s.collected_eq i o r.index x
  have hoff := s.collected_coll_off i o r.index x
  have hstalled := s.collected_coll_stalled i o r.index x
  have hkept := s.collected_coll_kept i o r.index x
  have hforms := s.collected_coll_forms i o r.index x
  have hstalls := s.collected_coll_stalls i o r.index x
  generalize s.collected i o r.index x = t at hexec hwhole hoff hstalled hkept hforms hstalls
  have hrecord : t.stream i = s.outcomeRecord i o x := by rw [hwhole, State.stream_retuned_self]
  have hnotices : t.req = { s.req with notices := s.req.notices.put i ((s.noticesOf i).noteSilent o x) } := by
    rw [hwhole]
    rfl
  refine ⟨_, hexec, rfl, ?_, ?_, ?_, fun j hj => ?_, ?_, hoff, fun ⟨hon, hin⟩ => hstalled hon hin, hkept, hforms,
    hstalls, ?_⟩
  · show (t.stream i).opening = _
    rw [hrecord, hgood, ← silentRunAfter_eq]
    rfl
  · show (t.stream i).generation = _
    rw [hrecord]
    rfl
  · show (t.stream i).counters = _
    rw [hrecord, hgood, State.outcomeRecord, StreamCounters.countOutcome_eq]
  · show t.stream j = _
    rw [hwhole, State.stream_retuned_ne _ _ _ _ _ hj]
  · show t.req = _
    rw [hnotices, StreamNotices.noteSilent, fallsSilent_eq]
  · rw [hwhole]
    exact ⟨rfl, rfl, rfl, rfl, rfl, rfl⟩

end Sys2Proof.Machine
end

section
/-! SUPPORT. The outcome of a cycle's last slot (R75, R84, R85): the end of the cycle, or the stop of the bus. -/

namespace Sys2Proof.Machine

/-! ## The outcome does not read the slot count -/

theorem State.markOutcome_withBus (s : State) (b : CycleEngine) (i : StreamId) (o : Opening) (x : ReturnOutcome) :
    (s.withBus b).markOutcome i o x = (s.markOutcome i o x).withBus b := by
  rw [State.markOutcome_eq, State.markOutcome_eq]
  rfl

theorem State.keepRecord_withBus (s : State) (b : CycleEngine) (i : StreamId) (batch : Nat) (r : ReturnRecord) :
    (s.withBus b).keepRecord i batch r = (s.keepRecord i batch r).withBus b := by
  unfold State.keepRecord
  rw [apply_ite (fun t : State => t.withBus b)]
  rfl

theorem State.handRecord_withBus (s : State) (b : CycleEngine) (i : StreamId) (batch : Nat) (r : ReturnRecord) :
    (s.withBus b).handRecord i batch r = (s.handRecord i batch r).withBus b := by
  unfold State.handRecord
  rw [State.keepRecord_withBus, apply_ite (fun t : State => t.withBus b), apply_ite (fun t : State => t.withBus b)]
  rfl

theorem State.collected_withBus (s : State) {b : CycleEngine} (hcycle : b.cycleNumber = s.bus.cycleNumber) (i : StreamId)
    (o : Opening) (slot : Nat) (x : ReturnOutcome) :
    (s.withBus b).collected i o slot x = (s.collected i o slot x).withBus b := by
  have hrecord : (s.withBus b).returnRecord slot x = s.returnRecord slot x := by
    rw [State.returnRecord, State.withBus_bus, hcycle, State.returnRecord]
  rw [State.collected, State.markOutcome_withBus, State.handRecord_withBus, hrecord, State.collected]

/-- An outcome reads only the cycle number of the Cycle Engine, and leaves the Cycle Engine alone (R111). -/
theorem State.takeOutcome_withBus (s : State) {b : CycleEngine} (hcycle : b.cycleNumber = s.bus.cycleNumber) (r : SlotRecord)
    (x : ReturnOutcome) : (s.withBus b).takeOutcome r x = (s.takeOutcome r x).withBus b := by
  unfold State.takeOutcome
  split
  · split <;> rfl
  · next i g _ =>
    rw [State.opening_withBus, State.stream_withBus]
    cases s.opening i with
    | none => rfl
    | some o =>
      simp only
      split
      · exact s.collected_withBus hcycle i o r.index x
      · rfl

/-- The Cycle Engine with just one slot more to come in its cycle. -/
def CycleEngine.oneMore (b : CycleEngine) : CycleEngine := { b with slotCount := some (b.nextSlot + 1) }

/-- With one slot more to come an outcome acts on the same records, and the slot ends. -/
theorem exec_slotOutcome_oneMore {s : State} {r : SlotRecord} (hservice : s.inService)
    (hflies : s.bus.slotInFlight = some r) (ret : Option (List Byte)) :
    exec (.slotOutcome ret) (s.withBus s.bus.oneMore) =
      .next ((s.takeOutcome r (classifyReturn r ret)).withBus (s.bus.oneMore.endsSlot r.index)) := by
  have hends := State.endSlot_more (s := s.withBus s.bus.oneMore) rfl (Nat.lt_succ_self _) r (classifyReturn r ret)
  have htaken := s.takeOutcome_withBus (b := s.bus.oneMore) rfl r (classifyReturn r ret)
  rw [exec_slotOutcome (s := s.withBus s.bus.oneMore) hservice hflies, hends, htaken]
  rfl

/-! ## The end of the cycle -/

theorem State.endCycle_gap {s : State} (h : s.bus.state ≠ .halting) : s.endCycle = s.withBus s.bus.cycleEnded := if_neg h

theorem State.endCycle_stops {s : State} (h : s.bus.state = .halting) :
    s.endCycle = (s.withBus s.bus.cycleEnded).stopAfterCycle := if_pos h

/-- The stop leaves the same from Cycle Engines that differ only in what it sets itself (R85 (1)). -/
theorem State.stopBus_congr (s : State) {b c : CycleEngine} (h : b.halted = c.halted) :
    (s.withBus b).stopBus = (s.withBus c).stopBus := by
  unfold State.stopBus
  rw [State.withBus_bus, State.withBus_bus, h]
  rfl

/-- The state with the entry of a HALT answered DONE behind the other replies (R84). -/
def State.haltAnswered (s : State) : State :=
  { s with req := { s.req with
      pendingTable := s.req.pendingTable.eraseP fun e => decide (e.job = .halt)
      replyQueue := s.req.replyQueue ++ ((s.req.pendingTable.find? fun e => decide (e.job = .halt)).map fun e =>
        Reply.mk e.tag 0x0C .done 0xFF (.bus .stopped)).toList } }

theorem State.stopAfterCycle_eq (s : State) : s.stopAfterCycle = s.stopBus.haltAnswered := by
  unfold State.stopAfterCycle
  generalize s.stopBus = t
  have hreply : (t.req.pendingTable.find? fun e => decide (e.job = .halt)).map (·.reply .done (.bus .stopped)) =
      (t.req.pendingTable.find? fun e => decide (e.job = .halt)).map fun e =>
        Reply.mk e.tag 0x0C .done 0xFF (.bus .stopped) := by
    refine Option.map_congr fun e he => ?_
    have hjob : e.job = .halt :=
      of_decide_eq_true (List.find?_some (p := fun e : PendingEntry => decide (e.job = .halt)) he)
    rw [PendingEntry.reply, hjob]
    rfl
  simp only [RequestUnit.answer_eq, hreply]
  rfl

/-- Settles O41: the outcome acts on the records as with one slot more to come; then the cycle ends, or the bus stops. -/
theorem lastOutcomeEndsCycleOrStopsBus : Obligations.LastOutcomeEndsCycleOrStopsBus := by
  intro s u r ret n hservice hflies hcount hlast hmore
  have hu : (s.takeOutcome r (classifyReturn r ret)).withBus (s.bus.oneMore.endsSlot r.index) = u :=
    Host.Outcome.next.inj ((exec_slotOutcome_oneMore hservice hflies ret).symm.trans hmore)
  have hexec := exec_slotOutcome hservice hflies ret
  rw [State.endSlot_last hcount hlast] at hexec
  subst hu
  generalize s.takeOutcome r (classifyReturn r ret) = t at hexec
  refine ⟨fun hruns => ?_, fun hhalting => ⟨_, State.stopBus_stopsTo _, ?_⟩⟩
  · rw [hexec, State.endCycle_gap (s := t.withBus (s.bus.endsSlot r.index)) hruns]
    rfl
  · have hsame : (t.withBus (s.bus.endsSlot r.index).cycleEnded).stopBus =
        (t.withBus (s.bus.oneMore.endsSlot r.index)).stopBus := t.stopBus_congr rfl
    rw [hexec, State.endCycle_stops (s := t.withBus (s.bus.endsSlot r.index)) hhalting, State.stopAfterCycle_eq]
    exact congrArg (fun v : State => Host.Outcome.next v.haltAnswered) hsame

end Sys2Proof.Machine
end

section
/-! SUPPORT. The visits that consume (R91 to R94, R101, R102): the entry due, and what a fresh visit, a stale one and the
last one of a drain leave. -/

namespace Sys2Proof.Machine

/-! ## The entry due -/

/-- One entry consumed or voided is a store with it cleared (R24 (2), (3)). -/
theorem RingStore.clearsTo_void (r : RingStore) (k : Nat) : r.clearsTo (· = k) (r.void k) := by
  refine ⟨fun j hj => ?_, fun j hj => ?_, rfl, rfl, rfl, rfl⟩
  · rw [RingStore.read_void, if_pos hj, hj]
  · rw [RingStore.read_void, if_neg hj]

section Due

variable {o : Opening} {p : Half} {x : Nat} (hdue : o.due p x) (r : RingStore)

include hdue

/-- The entry due is consumed, and its value handed over if it is fresh (R91). -/
theorem consumeDue_of_due :
    consumeDue o r = (if (r.read x).held = true ∧ (r.read x).tag = p then some (r.read x).value else none, r.void x) := by
  obtain ⟨hpos, hentry⟩ := hdue
  have hnumber : o.entryNumber p = some x := hentry
  rcases consumeDue_cases o r with ⟨-, hnone⟩ | ⟨p', k, hpos', hnumber', hconsumed⟩
  · rw [hnone p hpos] at hnumber
    cases hnumber
  · obtain rfl : p' = p := Option.some.inj (hpos'.symm.trans hpos)
    obtain rfl : k = x := Option.some.inj (hnumber'.symm.trans hnumber)
    exact hconsumed

theorem consumeDue_fresh (h : (r.read x).freshFor p) : consumeDue o r = (some (r.read x).value, r.void x) :=
  (consumeDue_of_due hdue r).trans (congrArg (·, r.void x) (if_pos h))

theorem consumeDue_stale (h : ¬ (r.read x).freshFor p) : consumeDue o r = (none, r.void x) :=
  (consumeDue_of_due hdue r).trans (congrArg (·, r.void x) (if_neg h))

/-- The play position moves on by one (R92 (6), R93 (6)). -/
theorem Opening.due.advanced : o.advanced = { o with playPos := some (p + 1) } := by
  obtain ⟨hpos, -⟩ := hdue
  rw [Opening.advanced, hpos]
  rfl

end Due

/-! ## The three visits -/

/-- A fresh visit, whole: one record (R92). -/
theorem State.freshVisit_eq (s : State) (i : StreamId) (o : Opening) (v : Word) :
    s.freshVisit i o v =
      s.withStream i { s.stream i with opening := some (o.afterFresh v), counters := (s.counters i).countPlayed } :=
  State.withOpening_withCounters ..

/-- A stale visit brings the miss run to the starve limit (R94). -/
def Opening.reachesLimit (o : Opening) : Bool := decide (o.missRun + 1 = o.starveLimit)

/-- The record after a stale visit in PLAYING: the miss run raised, and STARVED at the limit (R93, R94). -/
def Opening.afterMiss (o : Opening) : Opening :=
  { o.afterStale with phase := if o.reachesLimit then .starved else o.phase }

/-- A record written twice is written once. -/
theorem State.withStream_withStream (s : State) (i : StreamId) (r r' : StreamRec) :
    (s.withStream i r).withStream i r' = s.withStream i r' := congrArg s.withStreams (PerStream.put_put ..)

theorem State.counters_withStream_self (s : State) (i : StreamId) (r : StreamRec) :
    (s.withStream i r).counters i = r.counters := congrArg StreamRec.counters (s.stream_withStream_self i r)

/-- A stale visit in PLAYING, whole: one record and its STATE cell (R93, R94). -/
theorem State.staleVisit_eq (s : State) (i : StreamId) (o : Opening) :
    s.staleVisit i o = s.retuned i
      { s.stream i with
        opening := some o.afterMiss, counters := (s.counters i).countSubstituted.countStarve o.reachesLimit }
      ((s.noticesOf i).noteState o.reachesLimit o.mask) s.coll := by
  unfold State.staleVisit Opening.afterMiss
  rw [State.withOpening_withCounters]
  simp only
  cases hlimit : o.reachesLimit with
  | false =>
    rw [StreamCounters.countStarve_false, StreamNotices.noteState_false]
    refine (if_neg (of_decide_eq_false hlimit)).trans ?_
    exact (State.withNotices_noticesOf (s.withStream i _) i).symm
  | true =>
    refine (if_pos (of_decide_eq_true hlimit)).trans ?_
    rw [State.starve_eq, State.withOpening_withCounters, State.stream_withStream_self, State.withStream_withStream,
      State.counters_withStream_self]
    rfl

/-! ## The slot event that makes one -/

/-- A stale visit holds the policy's substitute (R93 (1), R102 (1)). -/
theorem State.consumingCommand_stale {s : State} {o : Opening} {p : Half} {x : Nat} (hdue : o.due p x)
    (hstale : ¬ (s.ring.read x).freshFor p) (i : StreamId) :
    s.consumingCommand i o = s.commandTo i o .hold o.holdValue := by
  have hvalue : o.substitute = o.holdValue := by
    unfold Opening.substitute Opening.holdValue
    cases o.policy <;> rfl
  simp only [State.consumingCommand, consumeDue_stale hdue s.ring hstale, hvalue]

section Slot

variable {s : State} {i : StreamId} {o : Opening} (ho : s.opening i = some o)

include ho

/-- A slot of a PLAYING or DRAINING stream visits it and sends the command that the visit decides (R75, R89). -/
theorem State.runSlot_consumes (hphase : o.phase = .playing ∨ o.phase = .draining) (k : Nat) :
    s.runSlot k (.stream i) = (s.consumingVisit i o).withBus (s.bus.sent k (s.consumingCommand i o)) := by
  have hvisited : s.visited i = s.consumingVisit i o := by
    rcases hphase with hp | hp <;> simp only [State.visited, ho, hp]
  have hcommand : s.visitCommand i = s.consumingCommand i o := by
    rcases hphase with hp | hp <;> simp only [State.visitCommand, ho, hp]
  rw [State.runSlot, hvisited, hcommand]

variable {p : Half} {x : Nat} (hdue : o.due p x)

include hdue

/-- A slot whose entry due is fresh sends SETPOINT with its value (R92 (1), R101). -/
theorem State.runSlot_fresh (hphase : o.phase = .playing ∨ o.phase = .draining) (hfresh : (s.ring.read x).freshFor p)
    (k : Nat) :
    s.runSlot k (.stream i) = ((s.withRing (s.ring.void x)).freshVisit i o (s.ring.read x).value).withBus
      (s.bus.sends k .setpoint (some (i, (s.stream i).generation)) o.station o.channel (s.ring.read x).value) := by
  have hconsumed := consumeDue_fresh hdue s.ring hfresh
  have hvisit : s.consumingVisit i o = (s.withRing (s.ring.void x)).freshVisit i o (s.ring.read x).value := by
    simp only [State.consumingVisit, hconsumed]
  have hcommand : s.consumingCommand i o = s.commandTo i o .setpoint (s.ring.read x).value := by
    simp only [State.consumingCommand, hconsumed]
  rw [State.runSlot_consumes ho hphase, hvisit, hcommand]
  rfl

/-- A slot of a PLAYING stream whose entry due is stale sends HOLD (R93 (1)). -/
theorem State.runSlot_stale (hp : o.phase = .playing) (hstale : ¬ (s.ring.read x).freshFor p) (k : Nat) :
    s.runSlot k (.stream i) = ((s.withRing (s.ring.void x)).staleVisit i o).withBus
      (s.bus.sends k .hold (some (i, (s.stream i).generation)) o.station o.channel o.holdValue) := by
  have hvisit : s.consumingVisit i o = (s.withRing (s.ring.void x)).staleVisit i o := by
    simp only [State.consumingVisit, consumeDue_stale hdue s.ring hstale]
    exact if_neg (by simp [hp])
  rw [State.runSlot_consumes ho (.inl hp), hvisit, State.consumingCommand_stale hdue hstale]
  rfl

/-- A slot of a DRAINING stream whose entry due is stale sends HOLD and ends the drain (R102). -/
theorem State.runSlot_last (hp : o.phase = .draining) (hstale : ¬ (s.ring.read x).freshFor p) (k : Nat) :
    s.runSlot k (.stream i) = ((s.withRing (s.ring.void x)).lastVisit i).withBus
      (s.bus.sends k .hold (some (i, (s.stream i).generation)) o.station o.channel o.holdValue) := by
  have hvisit : s.consumingVisit i o = (s.withRing (s.ring.void x)).lastVisit i := by
    simp only [State.consumingVisit, consumeDue_stale hdue s.ring hstale]
    exact if_pos hp
  rw [State.runSlot_consumes ho (.inr hp), hvisit, State.consumingCommand_stale hdue hstale]
  rfl

end Slot

/-- Settles O35: the entry due is fresh, so the slot runs a fresh visit. -/
theorem freshVisitPlaysSample : Obligations.FreshVisitPlaysSample := by
  intro s k i o p x hslot ho hphase hdue hfresh
  refine ⟨_, s.ring.clearsTo_void x, ?_⟩
  rw [hslot.runs, State.runSlot_fresh ho hdue hphase hfresh, State.freshVisit_eq, Opening.afterFresh, hdue.advanced]
  rfl

/-- Settles O36: the entry due is stale, so the slot runs a stale visit, and State.staleVisit_eq says what it writes. -/
theorem staleVisitSubstitutesAndStarves : Obligations.StaleVisitSubstitutesAndStarves := by
  intro s k i o p x hslot ho hp hdue hstale starves
  refine ⟨_, s.ring.clearsTo_void x, ?_⟩
  rw [hslot.runs, State.runSlot_stale ho hdue hp hstale, State.staleVisit_eq, Opening.afterMiss, Opening.afterStale,
    hdue.advanced, hp]
  rfl

/-- Settles O37: the entry due is stale, so the slot runs the last visit of the drain, a close with the effects of R12. -/
theorem staleVisitEndsDrain : Obligations.StaleVisitEndsDrain := by
  intro s k i o p x hslot ho hp hdue hstale
  have hopen : ((s.withRing (s.ring.void x)).withCounters i (s.counters i).countSubstituted).opening i = some o := by
    rw [State.opening_withCounters]
    exact ho
  refine ⟨_, _, s.ring.clearsTo_void x, State.closeStream_closesTo hopen true, ?_⟩
  rw [hslot.runs, State.runSlot_last ho hdue hp hstale]
  rfl

end Sys2Proof.Machine
end

section
/-! SUPPORT. The miss runs (R94): what keeps one record within its starve limit, and that every command does. -/

namespace Sys2Proof.Machine

/-! ## One record -/

theorem Opening.missOk_of_zero {o : Opening} (hlow : 1 ≤ o.starveLimit) (hhigh : o.starveLimit ≤ 31) (hzero : o.missRun = 0) :
    o.missOk := ⟨hlow, hhigh, by omega, fun _ => hzero, fun _ => by omega⟩

/-- In STARVED the miss run is bounded by 31 alone. -/
theorem Opening.missOk_of_starved {o : Opening} (hlow : 1 ≤ o.starveLimit) (hhigh : o.starveLimit ≤ 31) (hrun : o.missRun ≤ 31)
    (hstarved : o.phase = .starved) : o.missOk :=
  ⟨hlow, hhigh, hrun, by simp [hstarved], by simp [hstarved]⟩

theorem OpenRequest.missOk_opening {q : OpenRequest} (h : q.inRange = true) (blocks : List BlockId) (slots : Nat) :
    (q.opening blocks slots).missOk := by
  obtain ⟨-, -, -, -, -, -, hlow, hhigh, -⟩ := of_decide_eq_true h
  exact Opening.missOk_of_zero hlow hhigh rfl

/-- A record whose miss run is cleared, whatever its phase and its other fields become under the same starve limit. -/
theorem Opening.missOk.cleared {o p : Opening} (h : o.missOk) (hlimit : p.starveLimit = o.starveLimit) (hzero : p.missRun = 0) :
    p.missOk := by
  obtain ⟨hlow, hhigh, -⟩ := h
  exact Opening.missOk_of_zero (hlimit ▸ hlow) (hlimit ▸ hhigh) hzero

/-- A PLAYING stream begins to drain below its starve limit. -/
theorem Opening.missOk.drains {o : Opening} (h : o.missOk) (hp : o.phase = .playing) : { o with phase := .draining }.missOk := by
  obtain ⟨hlow, hhigh, hrun, -, hbelow⟩ := h
  exact ⟨hlow, hhigh, hrun, nofun, fun _ => hbelow (.inl hp)⟩

/-- A stream that begins to play has no miss (R49). -/
theorem Opening.missOk.afterPlay {o : Opening} (h : o.missOk) : o.afterPlay.missOk := by
  cases hplays : o.plays with
  | false => rwa [Opening.afterPlay_of_not hplays]
  | true =>
    obtain ⟨hpriming, -⟩ := of_decide_eq_true hplays
    obtain ⟨hlow, hhigh, -, hzero, -⟩ := h
    exact Opening.missOk_of_zero hlow hhigh (hzero (.inr hpriming))

/-- A stale visit in PLAYING stays below the starve limit, or reaches it and starves the stream (R94). -/
theorem Opening.missOk.afterMiss {o : Opening} (h : o.missOk) (hp : o.phase = .playing) : o.afterMiss.missOk := by
  obtain ⟨hlow, hhigh, -, -, hbelow⟩ := h
  have hlimit := hbelow (.inl hp)
  have hmiss : o.afterMiss.missRun ≤ 31 := show o.missRun + 1 ≤ 31 by omega
  cases hreached : o.reachesLimit with
  | true => exact Opening.missOk_of_starved hlow hhigh hmiss (if_pos hreached)
  | false =>
    have hshort : o.missRun + 1 ≠ o.starveLimit := of_decide_eq_false hreached
    have hphase : o.afterMiss.phase = .playing := (if_neg (by simp [hreached])).trans hp
    exact ⟨hlow, hhigh, hmiss, by simp [hphase], fun _ => show o.missRun + 1 < o.starveLimit by omega⟩

/-- Comparison (2) of R16 leaves no PLAYING stream at or above its starve limit. -/
theorem Opening.missOk_afterStarve {o : Opening} (hlow : 1 ≤ o.starveLimit) (hhigh : o.starveLimit ≤ 31) (hrun : o.missRun ≤ 31)
    (hzero : o.phase = .sweeping ∨ o.phase = .priming → o.missRun = 0) (hdrain : o.phase ≠ .draining) :
    o.afterStarve.missOk := by
  cases hstarves : o.starves with
  | true => exact Opening.missOk_of_starved hlow hhigh hrun (if_pos hstarves)
  | false =>
    rw [Opening.afterStarve_of_not hstarves]
    have hnot := of_decide_eq_false hstarves
    refine ⟨hlow, hhigh, hrun, hzero, fun hplays => ?_⟩
    exact Nat.not_le.1 fun hle => hnot ⟨hplays.resolve_right hdrain, hle⟩

theorem Opening.tuned_starveLimit_range {o : Opening} {q : TuneRequest} (h : o.missOk) (hq : q.rangesGood o.ringSize) :
    1 ≤ (o.tuned q).starveLimit ∧ (o.tuned q).starveLimit ≤ 31 := by
  obtain ⟨hlow, hhigh, -⟩ := h
  obtain ⟨-, hlimit, -⟩ := hq
  rw [Opening.tuned_starveLimit]
  split
  · exact ⟨hlow, hhigh⟩
  · next l hl => exact hlimit l hl

/-- A TUNE may bring the starve limit down to the miss run: its comparisons then starve the stream (R16). -/
theorem Opening.missOk.afterTune {o : Opening} {q : TuneRequest} (h : o.missOk) (hdrain : o.phase ≠ .draining)
    (hq : q.rangesGood o.ringSize) : (o.afterTune q).missOk := by
  obtain ⟨hlow, hhigh⟩ := Opening.tuned_starveLimit_range h hq
  obtain ⟨-, -, hrun, hzero, -⟩ := h
  have hphase := o.afterPlay_tuned_phase q
  refine Opening.missOk_afterStarve hlow hhigh hrun (fun hwaits => ?_) ?_
  · refine hzero ?_
    rw [hphase] at hwaits
    split at hwaits
    · simp at hwaits
    · exact hwaits
  · rw [hphase]
    split
    · nofun
    · exact hdrain

/-! ## The records of a state -/

theorem State.missRunsOk_closed {t : State} (h : ∀ i, t.opening i = none) : t.missRunsOk := fun i p hp => by
  rw [h i] at hp
  cases hp

theorem State.missRunsOk_ite {t u : State} {c : Prop} [Decidable c] (ht : t.missRunsOk) (hu : u.missRunsOk) :
    (if c then t else u).missRunsOk := by
  split
  · exact ht
  · exact hu

namespace State.missRunsOk

variable {s t : State}

theorem congr (h : s.missRunsOk) (ho : ∀ i, t.opening i = s.opening i) : t.missRunsOk := fun i p hp => h i p (ho i ▸ hp)

theorem onlyIf (hs : s.missRunsOk) (due : Bool) (ht : t.missRunsOk) : (s.onlyIf due t).missRunsOk := State.missRunsOk_ite ht hs

theorem withRing (h : s.missRunsOk) (r : RingStore) : (s.withRing r).missRunsOk := h
theorem withPlans (h : s.missRunsOk) (p : PlanStore) : (s.withPlans p).missRunsOk := h
theorem withBus (h : s.missRunsOk) (b : CycleEngine) : (s.withBus b).missRunsOk := h
theorem withColl (h : s.missRunsOk) (c : Collector) : (s.withColl c).missRunsOk := h
theorem withLink (h : s.missRunsOk) (l : FeedLink) : (s.withLink l).missRunsOk := h
theorem withReq (h : s.missRunsOk) (u : RequestUnit) : (s.withReq u).missRunsOk := h
theorem replyTo (h : s.missRunsOk) (f : Frame) (status : Status) (result : ReplyResult) :
    (s.replyTo f status result).missRunsOk := h

theorem withCounters (h : s.missRunsOk) (i : StreamId) (c : StreamCounters) : (s.withCounters i c).missRunsOk :=
  h.congr fun j => s.opening_withCounters i j c

/-- One record rewritten within its limit. -/
theorem withOpening (h : s.missRunsOk) (i : StreamId) {p : Opening} (hp : p.missOk) :
    (s.withOpening i (some p)).missRunsOk := by
  intro j q hq
  rw [State.opening_withOpening] at hq
  split at hq
  · cases hq
    exact hp
  · exact h j q hq

/-- One stream rewritten, its record within its limit. -/
theorem retuned (h : s.missRunsOk) (i : StreamId) {r : StreamRec} {p : Opening} (hr : r.opening = some p) (hp : p.missOk)
    (n : StreamNotices) (d : Collector) : (s.retuned i r n d).missRunsOk := by
  refine (h.withOpening i hp).congr fun j => ?_
  rw [State.opening_withOpening, ← hr]
  exact s.opening_withStream i j r

theorem closeStream (h : s.missRunsOk) (i : StreamId) (drainEnded : Bool) : (s.closeStream i drainEnded).missRunsOk := by
  cases ho : s.opening i with
  | none => rwa [State.closeStream_closed ho]
  | some o =>
    intro j p hp
    rw [State.opening_closeStream ho] at hp
    split at hp
    · cases hp
    · exact h j p hp

theorem endDrains (h : s.missRunsOk) (p : Opening → Bool) : (s.endDrains p).missRunsOk :=
  State.endDrains_induct (P := State.missRunsOk) (fun _ _ _ hu _ _ _ => hu.closeStream _ _) h

/-! ## Swaps and the stop of the bus -/

/-- A recount leaves what R94 speaks of (R68 (3)). -/
theorem recount (h : s.missRunsOk) (p : Plan) : (s.recount p).missRunsOk := by
  intro i q hq
  rw [State.opening_recount, Option.map_eq_some_iff] at hq
  obtain ⟨o, ho, rfl⟩ := hq
  exact h i o ho

theorem applySwap (h : s.missRunsOk) : s.applySwap.missRunsOk :=
  ((h.withPlans _).recount s.plans.staged).endDrains _

theorem settleSwap (h : s.missRunsOk) (cycle : Option Half) : (s.settleSwap cycle).missRunsOk := by
  unfold State.settleSwap
  split
  · exact (h.applySwap.withPlans _).withReq _
  · exact h

theorem stopBus (h : s.missRunsOk) : s.stopBus.missRunsOk :=
  ((h.withBus s.bus.halted).settleSwap none).endDrains _

theorem afterOutcome (h : s.missRunsOk) : s.afterOutcome.missRunsOk := by
  rcases s.afterOutcome_cases with ⟨hsame, -⟩ | ⟨hended, -⟩ | hstopped
  · rwa [hsame]
  · rw [hended]
    exact h
  · exact (h.withBus s.bus.cycleEnded).stopBus.congr hstopped.opening

end State.missRunsOk

/-! ## Requests about streams -/

section Requests

variable {s : State} (h : s.missRunsOk) (f : Frame)

include h

theorem State.missRunsOk.onOpen {b : Byte} {k : StreamId → Opening → State}
    (hk : ∀ i o, s.opening i = some o → (k i o).missRunsOk) : (s.onOpen f b k).missRunsOk := by
  unfold State.onOpen
  split
  · exact h
  · next i _ =>
    split
    · exact h
    · next o ho => exact hk i o ho

/-- A stream opens with no miss and a starve limit in its range (R6 (2), R7). -/
theorem State.missRunsOk.acceptOpen {q : OpenRequest} {i : StreamId} (haccepted : s.openRefusal q i = none) :
    (s.acceptOpen f q i).missRunsOk := by
  intro j p hp
  by_cases hj : j = i
  · subst hj
    rw [State.opening_acceptOpen_self] at hp
    cases hp
    exact OpenRequest.missOk_opening (State.openRefusal_accepts haccepted).1 _ _
  · rw [State.opening_acceptOpen_ne _ _ _ hj] at hp
    exact h j p hp

theorem State.missRunsOk.handleOpen : (handleOpen f s).missRunsOk := by
  unfold Machine.handleOpen
  split
  · exact h
  · split
    · exact h
    · split
      · exact h
      · next haccepted => exact h.acceptOpen f haccepted

theorem State.missRunsOk.handleCloseAtOnce : (handleCloseAtOnce f s).missRunsOk := by
  unfold Machine.handleCloseAtOnce
  split
  · exact h
  · exact h.onOpen f fun i _ _ => h.closeStream i false

theorem State.missRunsOk.drainOrClose {i : StreamId} {o : Opening} (ho : s.opening i = some o) :
    (s.drainOrClose f i o).missRunsOk := by
  have hclosed : (s.closeNow f i).missRunsOk := h.closeStream i false
  unfold State.drainOrClose
  split
  · exact hclosed
  · exact hclosed
  · exact hclosed
  · exact h
  · next hplays =>
    exact State.missRunsOk_ite hclosed (State.missRunsOk_ite h (h.withOpening i ((h i o ho).drains hplays)))

theorem State.missRunsOk.handleCloseWithDrain : (handleCloseWithDrain f s).missRunsOk := by
  unfold Machine.handleCloseWithDrain
  split
  · exact h
  · exact h.onOpen f fun i o ho => h.drainOrClose f ho

theorem State.missRunsOk.handleResumeWithoutSequence : (handleResumeWithoutSequence f s).missRunsOk := by
  unfold Machine.handleResumeWithoutSequence
  split
  · exact h
  · exact h.onOpen f fun i o ho => State.missRunsOk_ite (h.withOpening i ((h i o ho).cleared rfl rfl)) h

theorem State.missRunsOk.handleResumeWithStartSequence : (handleResumeWithStartSequence f s).missRunsOk := by
  unfold Machine.handleResumeWithStartSequence
  split
  · exact h
  · exact h
  · exact h.onOpen f fun i o ho =>
      State.missRunsOk_ite h (State.missRunsOk_ite h (h.withOpening i ((h i o ho).cleared rfl rfl)))

theorem State.missRunsOk.handleTune : (handleTune f s).missRunsOk := by
  unfold Machine.handleTune
  split
  · exact h
  · next q _ =>
    refine h.onOpen f fun i o ho => ?_
    unfold State.tuneStream
    split
    · exact h
    · next hphase =>
      split
      · exact h
      · next hrange =>
        have hgood : q.rangesGood o.ringSize := (q.rangesGood_iff _).2 (by simpa using hrange)
        have htuned := (h i o ho).afterTune (fun hd => hphase (.inr hd)) hgood
        show (s.applyTune q i o).missRunsOk
        rw [State.applyTune_eq]
        exact h.retuned i rfl htuned _ _

theorem State.missRunsOk.handleQuery : (handleQuery f s).missRunsOk := by
  unfold Machine.handleQuery
  split
  · exact h
  · split
    · exact h
    · exact h

theorem State.missRunsOk.handleFlush : (handleFlush f s).missRunsOk := by
  unfold Machine.handleFlush
  split
  · exact h
  · exact h.onOpen f fun i o _ =>
      State.missRunsOk_ite h (State.missRunsOk_ite h (State.missRunsOk_ite h h))

/-! ## Requests about the part -/

theorem State.missRunsOk.handleHello : (handleHello f s).missRunsOk := by
  unfold Machine.handleHello
  split
  · exact h
  · exact h

theorem State.missRunsOk.countersOf (clear : Bool) (target : CountersTarget) : (s.countersOf f clear target).missRunsOk := by
  cases target with
  | stream i =>
    refine State.missRunsOk.replyTo ?_ f _ _
    exact State.missRunsOk_ite (h.withCounters i {}) h
  | global =>
    refine State.missRunsOk.replyTo ?_ f _ _
    exact State.missRunsOk_ite h h

theorem State.missRunsOk.handleCounters : (handleCounters f s).missRunsOk := by
  unfold Machine.handleCounters
  split
  · exact h
  · split
    · exact h
    · exact h.countersOf f _ _

theorem State.missRunsOk.handleStage : (handleStage f s).missRunsOk := by
  unfold Machine.handleStage
  split
  · exact h
  · split
    · exact h
    · split
      · exact h
      · exact h

theorem State.missRunsOk.handleSwap : (handleSwap f s).missRunsOk := by
  unfold Machine.handleSwap
  split
  · exact h
  · split
    · exact h
    · split
      · exact h
      · split
        · exact h.applySwap.replyTo _ _ _
        · split
          · exact h
          · exact h

theorem State.missRunsOk.handleStart : (handleStart f s).missRunsOk := by
  unfold Machine.handleStart
  split
  · exact h
  · split
    · exact h
    · exact h
    · exact State.missRunsOk_ite h h

theorem State.missRunsOk.handleHalt : (handleHalt f s).missRunsOk := by
  unfold Machine.handleHalt
  split
  · exact h
  · split
    · exact h
    · exact h
    · split
      · split
        · exact h
        · exact h
      · exact h.stopBus.replyTo _ _ _

theorem State.missRunsOk.handlePeriod : (handlePeriod f s).missRunsOk := by
  unfold Machine.handlePeriod
  split
  · exact h
  · split
    · exact h
    · exact h

theorem State.missRunsOk.handleReset : (handleReset f s).missRunsOk := by
  unfold Machine.handleReset
  split
  · exact h
  · exact State.missRunsOk_closed fun i => State.opening_softReset _ i

theorem State.missRunsOk.handleUnknownKind : (handleUnknownKind f s).missRunsOk := State.missRunsOk_ite h h

/-! ## Bundles -/

theorem State.missRunsOk.acknowledge (i : StreamId) (status : Status) (n : PlaceCounts) :
    (s.acknowledge f i status n).missRunsOk := State.missRunsOk_ite h h

/-- A classified bundle leaves the miss run, and starts only a PRIMING stream (R49). -/
theorem State.missRunsOk.classifyBundle {q : BundleRequest} {o : Opening} (ho : s.opening q.stream = some o) :
    (s.classifyBundle f q o).missRunsOk := by
  have hplaced : (o.afterBundle q (s.classified q o).1.placed).missOk := h q.stream o ho
  rw [State.classifyBundle_eq]
  refine State.missRunsOk.acknowledge ?_ f _ _ _
  exact (h.withRing (s.classified q o).2).retuned q.stream rfl hplaced.afterPlay _ _

theorem State.missRunsOk.takeBundle (q : BundleRequest) : (s.takeBundle f q).missRunsOk := by
  have hrefused : (s.refuseBundle f q).missRunsOk := (h.withCounters _ _).acknowledge f _ _ _
  unfold State.takeBundle
  split
  · exact State.missRunsOk.acknowledge
      (s := s.withGlobals { s.req.globals with bundlesForClosed := s.req.globals.bundlesForClosed + 1 }) h f _ _ _
  · next o ho =>
    split
    · exact hrefused
    · exact hrefused
    · exact h.classifyBundle f ho
    · exact h.classifyBundle f ho
    · exact h.classifyBundle f ho

theorem State.missRunsOk.handleBundle : (handleBundle f s).missRunsOk := by
  unfold Machine.handleBundle
  split
  · exact State.missRunsOk_ite h h
  · exact h.takeBundle f _

end Requests

/-! ## Sweeps, visits and outcomes -/

section Events

variable {s : State} (h : s.missRunsOk) (i : StreamId)

include h

/-- A sweep completed leaves no miss (R33 (2)). -/
theorem State.missRunsOk.voidNext (voided : Nat) : (s.voidNext i voided).missRunsOk := by
  unfold State.voidNext
  split
  · exact h
  · next o ho =>
    split
    · exact h
    · next b _ =>
      split
      · have hswept : o.swept.missOk := (h i o ho).cleared rfl rfl
        exact (((h.withRing (s.ring.voidedOne i voided b)).withOpening i hswept).withReq _).withRing _
      · exact h.withRing _

/-- A visit of a PLAYING or DRAINING stream: fresh, the last of a drain, or stale (R91 to R94, R101, R102). -/
theorem State.missRunsOk.consumingVisit {o : Opening} (ho : s.opening i = some o)
    (hp : o.phase = .playing ∨ o.phase = .draining) : (s.consumingVisit i o).missRunsOk := by
  unfold State.consumingVisit
  split
  · next v r _ =>
    have hfresh : (o.afterFresh v).missOk := (h i o ho).cleared rfl rfl
    exact ((h.withRing r).withOpening i hfresh).withCounters i _
  · next r _ =>
    split
    · exact ((h.withRing r).withCounters i _).closeStream i true
    · next hplays =>
      rw [State.staleVisit_eq]
      exact (h.withRing r).retuned i rfl ((h i o ho).afterMiss (hp.resolve_right hplays)) _ _

theorem State.missRunsOk.visited : (s.visited i).missRunsOk := by
  unfold State.visited
  split
  · exact h
  · next o ho =>
    split
    · exact h
    · exact h
    · exact h
    · next hp => exact h.consumingVisit i ho (.inl hp)
    · next hp => exact h.consumingVisit i ho (.inr hp)

theorem State.missRunsOk.runSlot (k : Nat) (e : PlanEntry) : (s.runSlot k e).missRunsOk := by
  cases e with
  | idle => exact h
  | stream i => exact h.visited i

theorem State.missRunsOk.collected {o : Opening} (ho : s.opening i = some o) (slot : Nat) (x : ReturnOutcome) :
    (s.collected i o slot x).missRunsOk := by
  have hmiss : { o with silentRun := silentRunAfter o.silentRun x }.missOk := h i o ho
  rw [State.collected_eq]
  exact h.retuned (r := s.outcomeRecord i o x) i rfl hmiss _ _

/-- An outcome leaves what R94 speaks of (R79 to R81). -/
theorem State.missRunsOk.takeOutcome (r : SlotRecord) (x : ReturnOutcome) : (s.takeOutcome r x).missRunsOk := by
  unfold State.takeOutcome
  split
  · exact State.missRunsOk_ite h h
  · split
    · exact h
    · next o ho => exact State.missRunsOk_ite (h.collected _ ho r.index x) h

theorem State.missRunsOk.endSlot (r : SlotRecord) (x : ReturnOutcome) : (s.endSlot r x).missRunsOk :=
  ((h.takeOutcome r x).withBus _).afterOutcome

end Events

/-! ## Every command -/

section Commands

variable {s t : State} (hs : s.missRunsOk)

include hs

theorem handleHead_missRunsOk {c : Instr} {handle : Frame → State → State}
    (hh : ∀ {s : State}, s.missRunsOk → ∀ f, (handle f s).missRunsOk) (h : handleHead c handle s = .next t) :
    t.missRunsOk := by
  rcases handleHead_cases c handle s with hnone | ⟨f, rest, -, -, hsome⟩
  · rw [hnone] at h
    cases h
    exact hs
  · rw [hsome] at h
    cases h
    exact (hh (hs.congr (s.opening_beginHandling f)) f).congr (State.opening_endHandling _)

/-- Only the Feed Link Port and the LINK notice change at a byte of the feed link. -/
theorem State.missRunsOk.takeLength (b : Byte) (crc : Half) : (s.takeLength b crc).missRunsOk :=
  State.missRunsOk_ite (hs.withLink _) (((hs.withLink _).withLink _).withReq _)

theorem State.missRunsOk.offer (f : Frame) : (s.offer f).missRunsOk :=
  State.missRunsOk_ite (hs.withLink _) ((hs.withLink _).withReq _)

theorem State.missRunsOk.releaseStall : s.releaseStall.missRunsOk := by
  unfold State.releaseStall
  split
  · exact hs
  · exact hs.withColl _

theorem State.missRunsOk.pickOf (choice : PickChoice) : (s.pickOf choice).missRunsOk := by
  cases choice with
  | report =>
    show s.pickReport.missRunsOk
    unfold State.pickReport
    split
    · exact hs
    · exact ((hs.withColl _).releaseStall.withLink _).withLink _
  | reply =>
    show s.pickReply.missRunsOk
    unfold State.pickReply
    split
    · exact hs
    · exact ((hs.withReq _).withLink _).withLink _
  | linkNotice => exact ((hs.withReq _).withLink _).withLink _
  | streamNotice i k => exact (((hs.withReq _).withLink _).withLink _).withLink _

/-- Every command keeps the law of R94: each by the lemma of its handling or its event. -/
theorem exec_missRunsOk {c : Instr} (h : exec c s = .next t) : t.missRunsOk := by
  cases c with
  | powerOnReset cause rate1 rate0 =>
    have hon : ∀ rate low, (s.powerOn rate low).missRunsOk := fun rate low =>
      State.missRunsOk_closed (s.opening_powerOn rate low)
    cases h
    split
    · exact hon _ _
    · exact hon _ _
    · exact hs.onlyIf _ (hon _ _)
  | rstRelease rate1 rate0 => cases h; exact hs.onlyIf _ (hs.congr fun _ => rfl)
  | syncByte => cases h; exact hs.onlyIf _ (hs.withLink _)
  | huntByte b => cases h; exact hs.onlyIf _ (hs.withLink _)
  | lengthByte b =>
    cases h
    split
    · exact hs.onlyIf _ (hs.takeLength b _)
    · exact hs
  | bodyByte b =>
    cases h
    split
    · exact hs.onlyIf _ (hs.withLink _)
    · exact hs
  | highCheckByte b =>
    cases h
    split
    · exact hs.onlyIf _ (hs.withLink _)
    · exact hs
  | lowCheckByte b =>
    cases h
    split
    · exact hs.onlyIf _ (State.missRunsOk_ite ((hs.withLink _).offer _) (((hs.withLink _).withLink _).withReq _))
    · exact hs
  | interByteTimeout => cases h; exact hs.onlyIf _ (((hs.withLink _).withLink _).withReq _)
  | hello => exact handleHead_missRunsOk hs State.missRunsOk.handleHello h
  | openStream => exact handleHead_missRunsOk hs State.missRunsOk.handleOpen h
  | closeAtOnce => exact handleHead_missRunsOk hs State.missRunsOk.handleCloseAtOnce h
  | closeWithDrain => exact handleHead_missRunsOk hs State.missRunsOk.handleCloseWithDrain h
  | resumeWithoutSequence => exact handleHead_missRunsOk hs State.missRunsOk.handleResumeWithoutSequence h
  | resumeWithStartSequence => exact handleHead_missRunsOk hs State.missRunsOk.handleResumeWithStartSequence h
  | tune => exact handleHead_missRunsOk hs State.missRunsOk.handleTune h
  | query => exact handleHead_missRunsOk hs State.missRunsOk.handleQuery h
  | counters => exact handleHead_missRunsOk hs State.missRunsOk.handleCounters h
  | flush => exact handleHead_missRunsOk hs State.missRunsOk.handleFlush h
  | stage => exact handleHead_missRunsOk hs State.missRunsOk.handleStage h
  | swap => exact handleHead_missRunsOk hs State.missRunsOk.handleSwap h
  | start => exact handleHead_missRunsOk hs State.missRunsOk.handleStart h
  | halt => exact handleHead_missRunsOk hs State.missRunsOk.handleHalt h
  | period => exact handleHead_missRunsOk hs State.missRunsOk.handlePeriod h
  | reset => exact handleHead_missRunsOk hs State.missRunsOk.handleReset h
  | bundle => exact handleHead_missRunsOk hs State.missRunsOk.handleBundle h
  | unknownKind => exact handleHead_missRunsOk hs State.missRunsOk.handleUnknownKind h
  | blockVoided =>
    cases h
    split
    · exact hs
    · exact hs.onlyIf _ (hs.voidNext _ _)
  | cycleStart =>
    cases h
    split
    · exact hs
    · exact hs.onlyIf _ ((hs.settleSwap _).withBus _)
  | slotEvent =>
    cases h
    split
    · exact hs
    · exact hs.onlyIf _ (hs.runSlot _ _)
  | slotOutcome ret =>
    cases h
    split
    · exact hs
    · exact hs.onlyIf _ (hs.endSlot _ _)
  | pick =>
    cases h
    split
    · exact hs
    · exact hs.onlyIf _ (hs.pickOf _)
  | frameSent =>
    cases h
    split
    · exact hs
    · exact hs.onlyIf _ (hs.withLink _)
  | clockStops => cases h; exact hs.congr fun _ => rfl
  | clockReturns => cases h; exact hs.congr fun _ => rfl

end Commands

/-- Settles O54: a step is time passing, which leaves the records, or a command. -/
theorem everyStepKeepsMissRuns : Obligations.EveryStepKeepsMissRuns := by
  intro s t h hs
  unfold step at h
  split at h
  · cases h
    exact hs.onlyIf _ (hs.withBus _)
  · next c rest _ => exact exec_missRunsOk (hs.congr (s.opening_withPending rest)) h

end Sys2Proof.Machine
end

section
/-! SUPPORT. RESUME (R97 to R99): its body, the refusals in order, and what an accepted one leaves. -/

namespace Sys2Proof.Machine

/-! ## The body and the rows -/

/-- The body of a RESUME is the stream byte and the presence byte, and the start sequence exactly when the presence byte is 1. -/
theorem parseResume_eq (f : Frame) :
    parseResume f = if f.length = 4 ∧ byteAt f 3 = 0 then some (byteAt f 2, none)
      else if f.length = 6 ∧ byteAt f 3 = 1 then some (byteAt f 2, some (byteAt f 4 ++ byteAt f 5)) else none := by
  unfold parseResume
  split
  · simp [byteAt]
  · simp [byteAt, be16]
  · next hshort hlong =>
    have h4 : f.length ≠ 4 := fun hl => match f, hl with
      | [a, b, c, d], _ => hshort a b c d rfl
    have h6 : f.length ≠ 6 := fun hl => match f, hl with
      | [a, b, c, d, e, g], _ => hlong a b c d e g rfl
    simp [h4, h6]

theorem formed_parseResume_plain {f : Frame} (htag : tagOf f ≠ 0) (hl : f.length = 4) (hpresence : byteAt f 3 = 0) :
    formed parseResume f = some (byteAt f 2, none) := by
  rw [formed_of_tag _ htag, parseResume_eq, if_pos ⟨hl, hpresence⟩]

theorem formed_parseResume_start {f : Frame} (htag : tagOf f ≠ 0) (hl : f.length = 6) (hpresence : byteAt f 3 = 1) :
    formed parseResume f = some (byteAt f 2, some (byteAt f 4 ++ byteAt f 5)) := by
  rw [formed_of_tag _ htag, parseResume_eq, if_neg (by omega), if_pos ⟨hl, hpresence⟩]

/-- Bit 0 of the presence byte tells the rows of a RESUME apart (R160; log 3). -/
theorem frameCommand_resume {f : Frame} (h : kindOf f = 0x04) : frameCommand f =
    if (byteAt f 3).getLsbD 0 then .resumeWithStartSequence else .resumeWithoutSequence := by
  unfold frameCommand; rw [h]; rfl

theorem frameCommand_resume_plain {f : Frame} (h : kindOf f = 0x04) (hpresence : byteAt f 3 = 0) :
    frameCommand f = .resumeWithoutSequence := by
  rw [frameCommand_resume h, hpresence]; rfl

theorem frameCommand_resume_start {f : Frame} (h : kindOf f = 0x04) (hpresence : byteAt f 3 = 1) :
    frameCommand f = .resumeWithStartSequence := by
  rw [frameCommand_resume h, hpresence]; rfl

/-! ## Without a start sequence (R98) -/

/-- A malformed RESUME of the row without a start sequence: the other form has the other row. -/
theorem handleResumeWithoutSequence_badForm {f : Frame} (hk : kindOf f = 0x04) (hc : frameCommand f = .resumeWithoutSequence)
    (h : tagOf f = 0 ∨ f.length ≠ 4 ∨ byteAt f 3 ≠ 0) (s : State) :
    handleResumeWithoutSequence f s = s.refuse f .badForm := by
  have hother : byteAt f 3 ≠ 1 := fun hone => by
    rw [frameCommand_resume_start hk hone] at hc
    cases hc
  have hnone : formed parseResume f = none := formed_none (h.imp_right fun hbad => by
    rw [parseResume_eq, if_neg fun hform => hbad.elim (· hform.1) (· hform.2), if_neg fun hform => hother hform.2])
  simp [handleResumeWithoutSequence, hnone]

theorem handleResumeWithoutSequence_formed {f : Frame} (htag : tagOf f ≠ 0) (hl : f.length = 4) (hpresence : byteAt f 3 = 0)
    (s : State) : handleResumeWithoutSequence f s = s.onOpen f (byteAt f 2) fun i o => s.resumePlain f i o := by
  simp [handleResumeWithoutSequence, formed_parseResume_plain htag hl hpresence]

/-- The restart of a STARVED stream with the frame gone and its handling ended (R98). -/
theorem State.resumePlain_endHandling {s : State} {f : Frame} {rest : List Frame} (h : s.canTake f rest) {o : Opening}
    (hstarved : o.phase = .starved) (i : StreamId) :
    ((s.beginHandling f).resumePlain f i o).endHandling = State.queued
      { s.without rest with
        streams := s.streams.put i { s.stream i with opening := some { o with missRun := 0, phase := o.resumedPhase } } }
      (replyFor f .done (.stateGeneration o.resumedPhase.state (s.stream i).generation)) := by
  rw [State.resumePlain, if_pos hstarved, ← State.without_of_beginHandling h]
  rfl

/-- Settles O21: the refusals of R97, then the two answers of resumePlain. -/
theorem resumeWithoutSequenceRestartsStarvedStream : Obligations.ResumeWithoutSequenceRestartsStarvedStream := by
  intro s f rest h hk
  refine ⟨fun hc hbad => handleHead_badForm h hc hk (handleResumeWithoutSequence_badForm hk hc hbad _),
    fun htag hl hpresence => ?_⟩
  have hc := frameCommand_resume_plain hk hpresence
  have hhandled := handleResumeWithoutSequence_formed htag hl hpresence (s.beginHandling f)
  refine ⟨fun hbig => ?_, fun i hi => ⟨fun ho => ?_, fun o ho => ?_⟩⟩
  · exact handleHead_named h hc hk rfl (by omega) nofun (hhandled.trans (State.onOpen_badValue _ _ _ hbig))
  · exact handleHead_named h hc hk rfl (by omega) nofun (hhandled.trans (State.onOpen_closed _ _ hi ho))
  · have hopen := hhandled.trans (State.onOpen_open (s := s.beginHandling f) f _ hi ho)
    refine ⟨fun hphase => ?_, fun hstarved => ?_⟩
    · exact handleHead_named h hc hk rfl (by omega) nofun (hopen.trans (if_neg hphase))
    · show handleHead .resumeWithoutSequence handleResumeWithoutSequence s = _
      rw [handleHead_of_canTake h hc, hopen, State.resumePlain_endHandling h hstarved,
        replyFor_named hk rfl (by omega) (by nofun)]
      rfl

/-! ## With a start sequence (R99) -/

/-- A malformed RESUME of the row with a start sequence: the other form has the other row. -/
theorem handleResumeWithStartSequence_badForm {f : Frame} (hk : kindOf f = 0x04)
    (hc : frameCommand f = .resumeWithStartSequence) (h : tagOf f = 0 ∨ f.length ≠ 6 ∨ byteAt f 3 ≠ 1) (s : State) :
    handleResumeWithStartSequence f s = s.refuse f .badForm := by
  have hother : byteAt f 3 ≠ 0 := fun hzero => by
    rw [frameCommand_resume_plain hk hzero] at hc
    cases hc
  have hnone : formed parseResume f = none := formed_none (h.imp_right fun hbad => by
    rw [parseResume_eq, if_neg fun hform => hother hform.2, if_neg fun hform => hbad.elim (· hform.1) (· hform.2)])
  simp [handleResumeWithStartSequence, hnone]

theorem handleResumeWithStartSequence_formed {f : Frame} (htag : tagOf f ≠ 0) (hl : f.length = 6) (hpresence : byteAt f 3 = 1)
    (s : State) : handleResumeWithStartSequence f s =
      s.onOpen f (byteAt f 2) fun i o => s.resumeAt f (byteAt f 4 ++ byteAt f 5) i o := by
  simp [handleResumeWithStartSequence, formed_parseResume_start htag hl hpresence]

/-- A stream that is neither SWEEPING nor DRAINING is swept again, if an entry can be made (R97 (5), R99). -/
theorem State.resumeAt_settled {s : State} {o : Opening} (hswept : o.phase ≠ .sweeping) (hdrain : o.phase ≠ .draining)
    (f : Frame) (start : Half) (i : StreamId) :
    s.resumeAt f start i o = if s.req.tableFull then s.refuse f .tableFull
      else ((s.withOpening i (some (o.restarted start))).withRing (s.ring.joinSweep i)).defer f (.resumeOf i) :=
  if_neg fun hphase => hphase.elim hswept hdrain

/-- The restart of the window with the frame gone and its handling ended (R99). -/
theorem State.restarts_endHandling {s : State} {f : Frame} {rest : List Frame} (h : s.canTake f rest) (start : Half)
    (i : StreamId) (o : Opening) :
    ((((s.beginHandling f).withOpening i (some (o.restarted start))).withRing
        ((s.beginHandling f).ring.joinSweep i)).defer f (.resumeOf i)).endHandling = State.entered
      { s.without rest with
        streams := s.streams.put i { s.stream i with opening := some (o.restarted start) }, ring := s.ring.joinSweep i }
      ⟨tagOf f, .resumeOf i⟩ := by
  rw [← State.without_of_beginHandling h]
  rfl

/-- Settles O22: the refusals of R97, then the restart of the window with the stream in the sweep (R99). -/
theorem resumeWithStartSequenceSweepsAgain : Obligations.ResumeWithStartSequenceSweepsAgain := by
  intro s f rest h hk
  refine ⟨fun hc hbad => handleHead_badForm h hc hk (handleResumeWithStartSequence_badForm hk hc hbad _),
    fun htag hl hpresence => ?_⟩
  have hc := frameCommand_resume_start hk hpresence
  have hhandled := handleResumeWithStartSequence_formed htag hl hpresence (s.beginHandling f)
  refine ⟨fun hbig => ?_, fun i hi => ⟨fun ho => ?_, fun o ho => ?_⟩⟩
  · exact handleHead_named h hc hk rfl (by omega) nofun (hhandled.trans (State.onOpen_badValue _ _ _ hbig))
  · exact handleHead_named h hc hk rfl (by omega) nofun (hhandled.trans (State.onOpen_closed _ _ hi ho))
  · have hopen := hhandled.trans (State.onOpen_open (s := s.beginHandling f) f _ hi ho)
    refine ⟨fun hphase => ?_, fun hswept hdrain hfull => ?_, fun hswept hdrain hroom => ?_⟩
    · exact handleHead_named h hc hk rfl (by omega) nofun (hopen.trans (if_pos hphase))
    · have hsettled := hopen.trans (State.resumeAt_settled hswept hdrain f _ i)
      exact handleHead_named h hc hk rfl (by omega) nofun
        (hsettled.trans (if_pos ((s.beginHandling f).req.tableFull_iff.2 hfull)))
    · have hsettled := hopen.trans (State.resumeAt_settled hswept hdrain f _ i)
      rw [if_neg fun hfull => Nat.not_le.2 hroom ((s.beginHandling f).req.tableFull_iff.1 hfull)] at hsettled
      show handleHead .resumeWithStartSequence handleResumeWithStartSequence s = _
      rw [handleHead_of_canTake h hc, hsettled, State.restarts_endHandling h, RingStore.joinSweep_eq]
      rfl

end Sys2Proof.Machine
end

section
/-! SUPPORT. A TUNE of the collect batch (R119 to R121), by the new batch, the old one and the count of the buffer. -/

namespace Sys2Proof.Machine

/-! ## The batch, case by case -/

section Retune

variable {s : State} {i : StreamId} {old new : Nat}

theorem State.retuneBatch_same (h : new = old) : s.retuneBatch i old new = s := if_pos h

/-- A batch raised past the buffer's count ends a stall (R119). -/
theorem State.retuneBatch_raised_short (h : old < new) (hshort : (s.coll.buffers.at i).length < new) :
    s.retuneBatch i old new = s.withColl (s.coll.unstall i) := by
  unfold State.retuneBatch
  rw [if_neg h.ne', if_neg (by omega), if_pos h, if_pos hshort]

/-- A batch raised to no more than the buffer's count leaves it full (R119). -/
theorem State.retuneBatch_raised_full (h : old < new) (hfull : new ≤ (s.coll.buffers.at i).length) :
    s.retuneBatch i old new = s := by
  unfold State.retuneBatch
  rw [if_neg h.ne', if_neg (by omega), if_pos h, if_neg hfull.not_gt]

section Lowered

variable (hon : 0 < new) (h : new < old)

include hon h

theorem State.retuneBatch_lowered : s.retuneBatch i old new =
    if i ∈ s.coll.stallList then s
    else if new ≤ (s.coll.buffers.at i).length then s.withColl (s.coll.fillUp i (s.stream i).generation) else s := by
  unfold State.retuneBatch
  rw [if_neg h.ne, if_neg hon.ne', if_neg h.not_gt]

/-- A lowered batch leaves a stalled stream, and a buffer still short of it (R120). -/
theorem State.retuneBatch_lowered_left (hleft : i ∈ s.coll.stallList ∨ (s.coll.buffers.at i).length < new) :
    s.retuneBatch i old new = s := by
  rw [State.retuneBatch_lowered hon h]
  rcases hleft with hstalled | hshort
  · exact if_pos hstalled
  · rw [if_neg hshort.not_ge, ite_self]

variable (hfree : i ∉ s.coll.stallList) (hfull : new ≤ (s.coll.buffers.at i).length)

include hfree hfull

/-- A lowered batch that the buffer holds forms a report while the report queue has room (R113 (1), R120). -/
theorem State.retuneBatch_lowered_forms (hroom : s.coll.queue.length < 12) :
    s.retuneBatch i old new = s.withColl (s.coll.form i (s.stream i).generation false) := by
  rw [State.retuneBatch_lowered hon h, if_neg hfree, if_pos hfull, Collector.fillUp, if_pos hroom]

/-- With the report queue full it stalls the stream (R113 (2), R120). -/
theorem State.retuneBatch_lowered_stalls (hqueue : 12 ≤ s.coll.queue.length) :
    s.retuneBatch i old new = s.withColl { s.coll with stallList := s.coll.stallList ++ [i] } := by
  rw [State.retuneBatch_lowered hon h, if_neg hfree, if_pos hfull, Collector.fillUp, if_neg hqueue.not_gt]

end Lowered

section Off

variable (hoff : new = 0) (h : old ≠ 0)

include hoff h

theorem State.retuneBatch_off : s.retuneBatch i old new = (s.withColl (s.coll.unstall i)).turnOff i := by
  unfold State.retuneBatch
  rw [if_neg (by omega), if_pos hoff]

/-- Collection turned off with an empty buffer only ends a stall (R121). -/
theorem State.retuneBatch_off_empty (hempty : s.coll.buffers.at i = []) :
    s.retuneBatch i old new = s.withColl (s.coll.unstall i) := by
  rw [State.retuneBatch_off hoff h]
  exact if_pos hempty

variable (hheld : s.coll.buffers.at i ≠ [])

include hheld

/-- With room for a report the buffer goes out with the final flag (R121). -/
theorem State.retuneBatch_off_forms (hroom : s.coll.queue.length < 12) :
    s.retuneBatch i old new = s.withColl ((s.coll.unstall i).form i (s.stream i).generation true) := by
  rw [State.retuneBatch_off hoff h]
  exact (if_neg hheld).trans (if_pos hroom)

/-- With the report queue full the buffer is dropped, and counted as collect dropped and in the tally (R121). -/
theorem State.retuneBatch_off_drops (hqueue : 12 ≤ s.coll.queue.length) :
    s.retuneBatch i old new = (s.withCounters i { s.counters i with
      collectDropped := (s.counters i).collectDropped + BitVec.ofNat 32 (s.coll.buffers.at i).length }).withColl
      (((s.coll.unstall i).discard i).setTally i (s.coll.tallies.at i + (s.coll.buffers.at i).length)) := by
  rw [State.retuneBatch_off hoff h]
  exact (if_neg hheld).trans (if_neg hqueue.not_gt)

end Off

end Retune

/-- Only a buffer dropped raises collect dropped (R121). -/
theorem State.retuneBatch_collectDropped {s : State} {i : StreamId} {old new : Nat}
    (h : ¬ (new = 0 ∧ old ≠ 0 ∧ s.coll.buffers.at i ≠ [] ∧ 12 ≤ s.coll.queue.length)) :
    ((s.retuneBatch i old new).counters i).collectDropped = (s.counters i).collectDropped := by
  by_cases hoff : new = 0 ∧ old ≠ 0
  · obtain ⟨hnew, hold⟩ := hoff
    by_cases hempty : s.coll.buffers.at i = []
    · rw [State.retuneBatch_off_empty hnew hold hempty]
      rfl
    · have hroom : s.coll.queue.length < 12 := Nat.not_le.1 fun hqueue => h ⟨hnew, hold, hempty, hqueue⟩
      rw [State.retuneBatch_off_forms hnew hold hempty hroom]
      rfl
  · unfold State.retuneBatch
    split
    · rfl
    · next hchanges =>
      split
      · next hnew => exact absurd ⟨hnew, fun hold => hchanges (hnew.trans hold.symm)⟩ hoff
      · split
        · split <;> rfl
        · split
          · rfl
          · split <;> rfl

/-- The batch is read and written in the Return Collector, beside the generation in force and collect dropped. -/
theorem State.retuneBatch_congr {s u : State} {i : StreamId} (hcoll : u.coll = s.coll)
    (hgeneration : (u.stream i).generation = (s.stream i).generation)
    (hdropped : (u.counters i).collectDropped = (s.counters i).collectDropped) (old new : Nat) :
    (u.retuneBatch i old new).coll = (s.retuneBatch i old new).coll ∧
      ((u.retuneBatch i old new).counters i).collectDropped = ((s.retuneBatch i old new).counters i).collectDropped := by
  unfold State.retuneBatch State.turnOff
  simp only [State.withColl_coll, State.stream_withColl, State.counters_withColl, hcoll, hgeneration, hdropped]
  split_ifs
  all_goals simp [*]

/-! ## The TUNE that brings it -/

/-- The fields that a TUNE writes before the batch are none that the batch reads. -/
theorem State.rebatched_eq (s : State) (q : TuneRequest) (i : StreamId) (o : Opening) :
    (s.rebatched q i o).coll = (s.retuneBatch i o.collectBatch (o.tuned q).collectBatch).coll ∧
      ((s.rebatched q i o).counters i).collectDropped =
        ((s.retuneBatch i o.collectBatch (o.tuned q).collectBatch).counters i).collectDropped := by
  refine State.retuneBatch_congr (s := s) (u := s.refielded q i o) rfl ?_ ?_ _ _
  · rw [State.refielded, State.stream_retuned_self]
  · rw [State.refielded, State.counters_retuned_self]
    rfl

/-- After a TUNE that passes the checks of R14 the Return Collector and the collect dropped counter are those its batch
leaves. -/
theorem State.tunes.exec_retunes {s : State} {f : Frame} {rest : List Frame} {q : TuneRequest} {i : StreamId} {o : Opening}
    (h : s.tunes f rest q i o) :
    ∃ t, exec .tune s = .next t ∧ t.coll = (s.retuneBatch i o.collectBatch (o.tuned q).collectBatch).coll ∧
      (t.counters i).collectDropped =
        ((s.retuneBatch i o.collectBatch (o.tuned q).collectBatch).counters i).collectDropped := by
  obtain ⟨htake, hk, htag, hq, hi, ho, hs, hd, hgood⟩ := h
  have hexec : exec .tune s = .next ((((s.beginHandling f).applyTune q i o).replyTo f .done
      (.state (((s.beginHandling f).applyTune q i o).stream i).state)).endHandling) := by
    show handleHead .tune handleTune s = _
    rw [handleHead_of_canTake htake (frameCommand_tune hk), handleTune_formed htag hq,
      State.onOpen_open (s := s.beginHandling f) f _ hi ho, State.tuneStream_applied hs hd hgood]
  obtain ⟨hcoll, hdropped⟩ := (s.beginHandling f).rebatched_eq q i o
  obtain ⟨hcoll', hdropped'⟩ := State.retuneBatch_congr (s := s) (u := s.beginHandling f) (i := i) rfl rfl rfl
    o.collectBatch (o.tuned q).collectBatch
  refine ⟨_, hexec, ?_, ?_⟩
  · rw [State.endHandling_coll, State.replyTo, State.withReq_coll, State.applyTune_eq, State.retuned_coll, hcoll, hcoll']
  · rw [State.counters_endHandling, State.replyTo, State.counters_withReq, State.applyTune_eq, State.counters_retuned_self,
      ← hdropped', ← hdropped]
    rfl

/-- Settles O25: the cases of the batch, in the state before the TUNE. -/
theorem tuneBatchActsOnCollection : Obligations.TuneBatchActsOnCollection := by
  intro s f rest q i o h old new records report
  obtain ⟨t, hexec, hcoll, hdropped⟩ := h.exec_retunes
  have hnew : (o.tuned q).collectBatch = new := o.tuned_collectBatch q
  rw [hnew] at hcoll hdropped
  have hkept (hkeeps : ¬ (new = 0 ∧ old ≠ 0 ∧ records ≠ [] ∧ 12 ≤ s.coll.queue.length)) :
      (t.counters i).collectDropped = (s.counters i).collectDropped :=
    hdropped.trans (State.retuneBatch_collectDropped hkeeps)
  refine ⟨t, hexec, fun hsame => ⟨?_, ?_⟩, fun hraised hshort => ?_, fun hraised hfull => ?_, fun hon hlowered hleft => ?_,
    fun hon hlowered hfree hfull hroom => ?_, fun hon hlowered hfree hfull hqueue => ?_, fun hoff hwas hempty => ?_,
    fun hoff hwas hheld hroom => ?_, fun hoff hwas hheld hqueue => ⟨?_, ?_⟩, hkept⟩
  · rw [hcoll, State.retuneBatch_same hsame]
  · rw [← hkept fun ⟨hoff, hwas, _⟩ => hwas (hsame.symm.trans hoff)]
  · rw [hcoll, State.retuneBatch_raised_short hraised hshort]
    rfl
  · rw [hcoll, State.retuneBatch_raised_full hraised hfull]
  · rw [hcoll, State.retuneBatch_lowered_left hon hlowered hleft]
  · rw [hcoll, State.retuneBatch_lowered_forms hon hlowered hfree hfull hroom]
    rfl
  · rw [hcoll, State.retuneBatch_lowered_stalls hon hlowered hfree hfull hqueue]
    rfl
  · rw [hcoll, State.retuneBatch_off_empty hoff hwas hempty]
    rfl
  · rw [hcoll, State.retuneBatch_off_forms hoff hwas hheld hroom]
    rfl
  · rw [hcoll, State.retuneBatch_off_drops hoff hwas hheld hqueue]
    rfl
  · rw [hdropped, State.retuneBatch_off_drops hoff hwas hheld hqueue, State.counters_withColl,
      State.counters_withCounters_self]

end Sys2Proof.Machine
end

section
/-! SUPPORT. FLUSH (R118): its cases in order, and the report of the whole buffer. -/

namespace Sys2Proof.Machine

theorem frameCommand_flush {f : Frame} (h : kindOf f = 0x08) : frameCommand f = .flush := by
  unfold frameCommand; rw [h]; rfl

theorem handleFlush_badForm {f : Frame} (h : tagOf f = 0 ∨ f.length ≠ 3) (s : State) :
    handleFlush f s = s.refuse f .badForm := by
  have hnone : formed parseStream f = none := formed_none (h.imp_right fun hl => by rw [parseStream_eq, if_neg hl])
  simp [handleFlush, hnone]

theorem handleFlush_formed {f : Frame} (htag : tagOf f ≠ 0) (hl : f.length = 3) (s : State) :
    handleFlush f s = s.onOpen f (byteAt f 2) fun i o => s.flushStream f i o := by
  unfold handleFlush
  rw [formed_parseStream htag hl]
  rfl

/-! ## A FLUSH of an open stream: cases (4) to (7) of R118 -/

section Open

variable {s : State} {f : Frame} {i : StreamId} {o : Opening}

theorem State.flushStream_off (hoff : o.collectBatch = 0) : s.flushStream f i o = s.refuse f .wrongState := if_pos hoff

variable (hon : o.collectBatch ≠ 0)

include hon

theorem State.flushStream_empty (hempty : s.coll.buffers.at i = []) :
    s.flushStream f i o = s.replyTo f .done (.recordCount 0) := (if_neg hon).trans (if_pos hempty)

variable (hheld : s.coll.buffers.at i ≠ [])

include hheld

theorem State.flushStream_busy (hqueue : 12 ≤ s.coll.queue.length) : s.flushStream f i o = s.refuse f .busy :=
  (if_neg hon).trans ((if_neg hheld).trans (if_pos hqueue))

theorem State.flushStream_reports (hroom : s.coll.queue.length < 12) :
    s.flushStream f i o = (s.withColl (s.coll.form i (s.stream i).generation false)).replyTo f .done
      (.recordCount (s.coll.buffers.at i).length) :=
  (if_neg hon).trans ((if_neg hheld).trans (if_neg hroom.not_ge))

end Open

/-- A change of the Return Collector answered with one reply, the frame gone and its handling ended. -/
theorem State.withColl_replyTo_endHandling {s : State} {f : Frame} {rest : List Frame} (h : s.canTake f rest)
    (c : Collector) (status : Status) (result : ReplyResult) :
    (((s.beginHandling f).withColl c).replyTo f status result).endHandling =
      ((s.without rest).withColl c).queued (replyFor f status result) := by
  rw [← State.without_of_beginHandling h]
  rfl

/-- Settles O27: the form, the stream number and the open stream first, then the four cases of flushStream. -/
theorem flushReportsBuffer : Obligations.FlushReportsBuffer := by
  intro s f rest h hk
  have hc := frameCommand_flush hk
  refine ⟨fun hbad => handleHead_badForm h hc hk (handleFlush_badForm hbad _),
    fun htag hl => ⟨fun hbig => ?_, fun i hi => ⟨fun ho => ?_, fun o ho => ?_⟩⟩⟩
  · have hhandled := handleFlush_formed htag hl (s.beginHandling f)
    exact handleHead_named h hc hk rfl hl.ge nofun (hhandled.trans (State.onOpen_badValue _ _ _ hbig))
  · exact handleHead_named h hc hk rfl hl.ge nofun ((handleFlush_formed htag hl _).trans (State.onOpen_closed _ _ hi ho))
  · have hopen : handleFlush f (s.beginHandling f) = (s.beginHandling f).flushStream f i o :=
      (handleFlush_formed htag hl _).trans (State.onOpen_open (s := s.beginHandling f) f _ hi ho)
    refine ⟨fun hoff => ?_, fun hon hempty => ?_, fun hon hheld hqueue => ?_, fun hon hheld hroom => ?_⟩
    · exact handleHead_named h hc hk rfl hl.ge nofun (hopen.trans (State.flushStream_off hoff))
    · exact handleHead_named h hc hk rfl hl.ge nofun (hopen.trans (State.flushStream_empty hon hempty))
    · exact handleHead_named h hc hk rfl hl.ge nofun (hopen.trans (State.flushStream_busy hon hheld hqueue))
    · show handleHead .flush handleFlush s = _
      rw [handleHead_of_canTake h hc, hopen, State.flushStream_reports (s := s.beginHandling f) hon hheld hroom,
        State.withColl_replyTo_endHandling h, replyFor_named hk rfl hl.ge (status := .done) nofun]
      rfl

end Sys2Proof.Machine
end

section
/-! SUPPORT. The pick of a report (R116, R137, R139), and the stall list head it hands on. -/

namespace Sys2Proof.Machine

/-! ## The choice -/

/-- A stream with no flag has no pending notice (R138). -/
theorem StreamNotices.firstPending_none {n : StreamNotices}
    (h : n.state.flag = false ∧ n.discard.flag = false ∧ n.silent.flag = false) : n.firstPending = none := by
  obtain ⟨hstate, hdiscard, hsilent⟩ := h
  simp [StreamNotices.firstPending, hstate, hdiscard, hsilent]

/-- The round finds nothing where no stream has a flag (R138). -/
theorem State.noticeChoice_none {s : State}
    (h : ∀ i, (s.noticesOf i).state.flag = false ∧ (s.noticesOf i).discard.flag = false ∧ (s.noticesOf i).silent.flag = false) :
    s.noticeChoice = none := by
  refine List.findSome?_eq_none_iff.2 fun i _ => ?_
  rw [State.pendingNotice, StreamNotices.firstPending_none (h i), Option.map_none]

/-- After four frames without a report the next one is due (R137 (1)). -/
theorem State.pickChoice_dueReport {s : State} (hq : s.coll.queue ≠ []) (hdue : s.link.sinceReport = 4) :
    s.pickChoice = some .report := if_pos ⟨hdue, hq⟩

/-- With no reply and no notice a report is picked (R137 (5)). -/
theorem State.pickChoice_onlyReport {s : State} (hq : s.coll.queue ≠ []) (hreplies : s.req.replyQueue = [])
    (hlink : s.req.link.flag = false) (hnotices : s.noticeChoice = none) : s.pickChoice = some .report := by
  have hflag : ¬ s.req.link.flag = true := by simp [hlink]
  by_cases hdue : s.link.sinceReport = 4 ∧ s.coll.queue ≠ []
  · exact if_pos hdue
  · unfold State.pickChoice
    rw [if_neg hdue, if_neg (not_not.2 hreplies), if_neg hflag, hnotices]
    exact if_pos hq

/-- A pick in service with the transmit framer IDLE is that of the choice (R136). -/
theorem exec_pick {s : State} {c : PickChoice} (hservice : s.inService) (hidle : s.link.tx = .idle)
    (hc : s.pickChoice = some c) : exec .pick s = .next (s.pickOf c) := by
  have hdue : (s.live && decide (s.link.tx = .idle)) = true := by
    rw [(State.live_iff s).2 hservice, hidle]
    rfl
  show execPick s = _
  unfold execPick
  rw [hc, hdue]
  rfl

/-! ## The report picked -/

theorem State.releaseStall_empty {s : State} (h : s.coll.stallList = []) : s.releaseStall = s := by
  simp [State.releaseStall, h]

/-- The head of the stall list hands its buffer on (R116). -/
theorem State.releaseStall_head {s : State} {j : StreamId} {stalled : List StreamId} (h : s.coll.stallList = j :: stalled) :
    s.releaseStall = s.withColl (({ s.coll with stallList := stalled } : Collector).form j (s.stream j).generation false) := by
  simp [State.releaseStall, h]

theorem State.pickReport_none {s : State} (h : s.coll.queue = []) : s.pickReport = s := by
  simp [State.pickReport, h]

theorem State.pickReport_head {s : State} {r : Report} {reports : List Report} (h : s.coll.queue = r :: reports) :
    s.pickReport = ((s.withColl { s.coll with queue := reports }).releaseStall).clearSince.send (r.body s.credits) := by
  simp [State.pickReport, h]

/-- Settles O46: the choice falls on the report, its pick leaves the queue, and the stall list is empty or has a head; the
bytes are those of Report.body. -/
theorem reportPickedAndStallReleased : Obligations.ReportPickedAndStallReleased := by
  refine ⟨?_, fun _ _ => rfl, fun cycle slot => ⟨fun status value => List.append_assoc .., rfl, rfl, rfl⟩⟩
  intro s r reports hservice hidle hq hdue sent
  have hheld : s.coll.queue ≠ [] := hq ▸ List.cons_ne_nil r reports
  have hchoice : s.pickChoice = some .report := by
    rcases hdue with hdue | ⟨hreplies, hlink, hnotices⟩
    · exact State.pickChoice_dueReport hheld hdue
    · exact State.pickChoice_onlyReport hheld hreplies hlink (State.noticeChoice_none hnotices)
  have hexec : exec .pick s = .next s.pickReport := exec_pick hservice hidle hchoice
  rw [hexec, State.pickReport_head hq]
  refine ⟨fun hstalls => ?_, fun j stalled hstalls => ?_⟩
  · rw [State.releaseStall_empty (s := s.withColl { s.coll with queue := reports }) hstalls]
    rfl
  · rw [State.releaseStall_head (s := s.withColl { s.coll with queue := reports }) hstalls]
    rfl

end Sys2Proof.Machine
end

section
/-! SUPPORT. The laws of the Return Collector (R110, R112, R113) for one stream and for all, and the three ways in which a
stream's buffer and its place in the stall list change. -/

namespace Sys2Proof.Machine

/-! ## The laws, stream by stream -/

/-- The collect batch of a stream, with a CLOSED stream's collection off. -/
def State.batchOf (s : State) (i : StreamId) : Nat :=
  match s.opening i with
  | none => 0
  | some o => o.collectBatch

theorem State.batchOf_open {s : State} {i : StreamId} {o : Opening} (h : s.opening i = some o) :
    s.batchOf i = o.collectBatch := by
  simp [State.batchOf, h]

theorem State.batchOf_closed {s : State} {i : StreamId} (h : s.opening i = none) : s.batchOf i = 0 := by
  simp [State.batchOf, h]

theorem State.batchOf_congr {s t : State} {i : StreamId} (h : t.opening i = s.opening i) : t.batchOf i = s.batchOf i := by
  unfold State.batchOf
  rw [h]

/-- A stream stands in the stall list exactly if its buffer is full; with collection off the buffer is empty (R112, R113). -/
structure Collector.lawfulAt (c : Collector) (i : StreamId) (batch : Nat) : Prop where
  stalled : i ∈ c.stallList ↔ batch ≠ 0 ∧ batch ≤ (c.buffers.at i).length
  off : batch = 0 → c.buffers.at i = []
  range : batch ≤ 16
  held : (c.buffers.at i).length ≤ 16

/-- The laws of the Return Collector under the batches of the streams. -/
structure Collector.lawful (c : Collector) (batch : StreamId → Nat) : Prop where
  each : ∀ i, c.lawfulAt i (batch i)
  nodup : c.stallList.Nodup
  full : c.stallList ≠ [] → c.queue.length = 12
  fits : c.queue.length ≤ 12

theorem State.bufferFull_iff (s : State) (i : StreamId) :
    s.bufferFull i ↔ s.batchOf i ≠ 0 ∧ s.batchOf i ≤ (s.coll.buffers.at i).length := by
  unfold State.bufferFull
  cases ho : s.opening i with
  | none => simp [State.batchOf_closed ho]
  | some o => simp [State.batchOf_open ho]

/-- The laws of State.stallsOk are those of the Return Collector under the batches of the part's streams. -/
theorem State.stallsOk_iff (s : State) : s.stallsOk ↔ s.coll.lawful s.batchOf := by
  constructor
  · rintro ⟨hnodup, hstalled, hfull, hfits, hclosed, hopen, hheld⟩
    refine ⟨fun i => ⟨(hstalled i).trans (s.bufferFull_iff i), ?_, ?_, hheld i⟩, hnodup, hfull, hfits⟩
    · cases ho : s.opening i with
      | none => exact fun _ => hclosed i ho
      | some o => rw [State.batchOf_open ho]; exact (hopen i o ho).2
    · cases ho : s.opening i with
      | none => rw [State.batchOf_closed ho]; exact Nat.zero_le _
      | some o => rw [State.batchOf_open ho]; exact (hopen i o ho).1
  · rintro ⟨heach, hnodup, hfull, hfits⟩
    refine ⟨hnodup, fun i => (heach i).stalled.trans (s.bufferFull_iff i).symm, hfull, hfits,
      fun i ho => (heach i).off (State.batchOf_closed ho), fun i o ho => ?_, fun i => (heach i).held⟩
    rw [← State.batchOf_open ho]
    exact ⟨(heach i).range, (heach i).off⟩

/-! ## A stream's buffer rewritten -/

section Lawful

variable {c d : Collector} {batch batch' : StreamId → Nat} {i : StreamId} {records : List ReturnRecord}

/-- While the report queue has room no stream is stalled. -/
theorem Collector.lawful.room (h : c.lawful batch) (hroom : c.queue.length < 12) : c.stallList = [] := by
  by_contra hstalls
  exact hroom.ne (h.full hstalls)

/-- Where one stream alone is touched, the laws of the others stand. -/
theorem Collector.lawful.rewrites (h : c.lawful batch) (hbatch : ∀ j, j ≠ i → batch' j = batch j)
    (hbuffers : d.buffers = c.buffers.put i records) (hstalls : ∀ j, j ≠ i → (j ∈ d.stallList ↔ j ∈ c.stallList))
    (hself : d.lawfulAt i (batch' i)) (j : StreamId) : d.lawfulAt j (batch' j) := by
  by_cases hj : j = i
  · rw [hj]
    exact hself
  · have hbuffer : d.buffers.at j = c.buffers.at j := by rw [hbuffers, PerStream.at_put_ne _ _ hj]
    obtain ⟨hstalled, hoff, hrange, hheld⟩ := h.each j
    rw [hbatch j hj]
    exact ⟨by rw [hstalls j hj, hbuffer]; exact hstalled, by rwa [hbuffer], hrange, by rwa [hbuffer]⟩

variable (h : c.lawful batch) (hbatch : ∀ j, j ≠ i → batch' j = batch j) (hrange : batch' i ≤ 16)
  (hbuffers : d.buffers = c.buffers.put i records)

include h hbatch hrange hbuffers

/-- A buffer left short of the batch, or empty: the stream is not stalled, and others stay so only while the report queue is
full. -/
theorem Collector.lawful.frees (hshort : records.length < batch' i ∨ records = [])
    (hstalls : d.stallList = c.stallList.erase i) (hfull : c.stallList ≠ [] → d.queue.length = 12)
    (hfits : d.queue.length ≤ 12) : d.lawful batch' := by
  have hself : d.lawfulAt i (batch' i) := by
    have hbuffer : d.buffers.at i = records := by rw [hbuffers, PerStream.at_put_self]
    have hfree : i ∉ d.stallList := by
      rw [hstalls, h.nodup.mem_erase_iff]
      exact fun hin => hin.1 rfl
    have hnot : ¬ (batch' i ≠ 0 ∧ batch' i ≤ records.length) := by
      rintro ⟨hon, hlong⟩
      rcases hshort with hshort | rfl
      · exact hshort.not_ge hlong
      · exact hon (Nat.le_zero.1 hlong)
    have hoff : batch' i = 0 → records = [] := fun hzero => hshort.resolve_left (by omega)
    have hheld : records.length ≤ 16 := by
      rcases hshort with hshort | rfl
      · omega
      · exact Nat.zero_le _
    rw [← hbuffer] at hnot hoff hheld
    exact ⟨iff_of_false hfree hnot, hoff, hrange, hheld⟩
  refine ⟨h.rewrites hbatch hbuffers (fun j hj => ?_) hself, ?_, fun hne => hfull fun hnil => hne ?_, hfits⟩
  · rw [hstalls, h.nodup.mem_erase_iff, and_iff_right hj]
  · rw [hstalls]
    exact h.nodup.erase i
  · rw [hstalls, hnil, List.erase_nil]

/-- A buffer that becomes full while the report queue is full: the stream joins the stall list (R113 (2)). -/
theorem Collector.lawful.stalls (hon : batch' i ≠ 0) (hlong : batch' i ≤ records.length) (hheld : records.length ≤ 16)
    (hfree : i ∉ c.stallList) (hstalls : d.stallList = c.stallList ++ [i]) (hqueue : d.queue = c.queue)
    (hfull : 12 ≤ c.queue.length) : d.lawful batch' := by
  have hself : d.lawfulAt i (batch' i) := by
    have hbuffer : d.buffers.at i = records := by rw [hbuffers, PerStream.at_put_self]
    rw [← hbuffer] at hlong hheld
    exact ⟨iff_of_true (by simp [hstalls]) ⟨hon, hlong⟩, fun hoff => absurd hoff hon, hrange, hheld⟩
  refine ⟨h.rewrites hbatch hbuffers (fun j hj => by simp [hstalls, hj]) hself, ?_, fun _ => ?_, ?_⟩
  · rw [hstalls, ← List.concat_eq_append]
    exact h.nodup.concat hfree
  · rw [hqueue]
    exact le_antisymm h.fits hfull
  · rw [hqueue]
    exact h.fits

omit hbuffers in
/-- A batch changed to one that a full buffer still holds: the stream stays stalled (R119, R120). -/
theorem Collector.lawful.staysStalled (hin : i ∈ c.stallList) (hon : batch' i ≠ 0)
    (hlong : batch' i ≤ (c.buffers.at i).length) : c.lawful batch' :=
  ⟨h.rewrites hbatch (PerStream.put_at ..).symm (fun _ _ => Iff.rfl)
    ⟨iff_of_true hin ⟨hon, hlong⟩, fun hoff => absurd hoff hon, hrange, (h.each i).held⟩, h.nodup, h.full, h.fits⟩

end Lawful

/-! ## The operations of the Return Collector -/

section Operations

variable {s : State} {batch batch' : StreamId → Nat} {i : StreamId} (h : s.coll.lawful batch)

include h

/-- A report formed while the report queue has room (R114). -/
theorem Collector.lawful.form (hroom : s.coll.queue.length < 12) (hbatch : ∀ j, j ≠ i → batch' j = batch j)
    (hrange : batch' i ≤ 16) (g : Byte) (final : Bool) : (s.coll.form i g final).lawful batch' := by
  have hnil := h.room hroom
  refine h.frees hbatch hrange rfl (.inr rfl) ?_ (fun hne => absurd hnil hne) (Collector.form_queue i g final hroom)
  show s.coll.stallList = s.coll.stallList.erase i
  rw [hnil, List.erase_nil]

/-- A record handed on by R112: left, dropped, kept, sent in a report, or kept with the stream stalled. -/
theorem Collector.lawful.handRecord (r : ReturnRecord) : (s.handRecord i (batch i) r).coll.lawful batch := by
  by_cases hoff : batch i = 0
  · rwa [hoff, State.handRecord_off]
  · by_cases hin : i ∈ s.coll.stallList
    · rw [State.handRecord_stalled hoff hin]
      exact ⟨fun j => ⟨(h.each j).stalled, (h.each j).off, (h.each j).range, (h.each j).held⟩, h.nodup, h.full, h.fits⟩
    · have herase : s.coll.stallList = s.coll.stallList.erase i := (List.erase_of_not_mem hin).symm
      have hrange := (h.each i).range
      have hcount : (s.coll.buffers.at i ++ [r]).length = (s.coll.buffers.at i).length + 1 := List.length_append
      have hbelow : (s.coll.buffers.at i).length < batch i :=
        Nat.not_le.1 fun hlong => hin ((h.each i).stalled.2 ⟨hoff, hlong⟩)
      by_cases hshort : (s.coll.buffers.at i ++ [r]).length < batch i
      · rw [State.handRecord_kept hoff hin r hshort]
        exact h.frees (fun _ _ => rfl) hrange rfl (.inl hshort) herase h.full h.fits
      · by_cases hroom : s.coll.queue.length < 12
        · rw [State.handRecord_forms hoff hin r (Nat.not_lt.1 hshort) hroom]
          refine h.frees (fun _ _ => rfl) hrange rfl (.inr rfl) herase (fun hne => absurd (h.room hroom) hne) ?_
          exact List.length_append.trans_le hroom
        · rw [State.handRecord_stalls hoff hin r (Nat.not_lt.1 hshort) (Nat.not_lt.1 hroom)]
          exact h.stalls (fun _ _ => rfl) hrange rfl hoff (Nat.not_lt.1 hshort) (by omega) hin rfl rfl (Nat.not_lt.1 hroom)

/-- A batch changed by a TUNE (R119 to R121). -/
theorem Collector.lawful.retuneBatch (hbatch : ∀ j, j ≠ i → batch' j = batch j) (hrange : batch' i ≤ 16) :
    (s.retuneBatch i (batch i) (batch' i)).coll.lawful batch' := by
  have hsame : s.coll.buffers = s.coll.buffers.put i (s.coll.buffers.at i) := (PerStream.put_at ..).symm
  rcases eq_or_ne (batch' i) (batch i) with hkept | hchanged
  · rw [State.retuneBatch_same hkept]
    have hbatches : batch' = batch := funext fun j => by
      by_cases hj : j = i
      · rw [hj, hkept]
      · exact hbatch j hj
    rwa [hbatches]
  · rcases Nat.eq_zero_or_pos (batch' i) with hoff | hon
    · have hwas : batch i ≠ 0 := fun hwas => hchanged (hoff.trans hwas.symm)
      by_cases hempty : s.coll.buffers.at i = []
      · rw [State.retuneBatch_off_empty hoff hwas hempty]
        exact h.frees hbatch hrange hsame (.inr hempty) rfl h.full h.fits
      · by_cases hroom : s.coll.queue.length < 12
        · rw [State.retuneBatch_off_forms hoff hwas hempty hroom]
          exact h.frees hbatch hrange rfl (.inr rfl) rfl (fun hne => absurd (h.room hroom) hne)
            (Collector.form_queue i _ true hroom)
        · rw [State.retuneBatch_off_drops hoff hwas hempty (Nat.not_lt.1 hroom)]
          exact h.frees hbatch hrange rfl (.inr rfl) rfl h.full h.fits
    · rcases Nat.lt_or_gt_of_ne hchanged with hlowered | hraised
      · by_cases hin : i ∈ s.coll.stallList
        · rw [State.retuneBatch_lowered_left hon hlowered (.inl hin)]
          exact h.staysStalled hbatch hrange hin hon.ne' (hlowered.le.trans ((h.each i).stalled.1 hin).2)
        · have herase : s.coll.stallList = s.coll.stallList.erase i := (List.erase_of_not_mem hin).symm
          by_cases hshort : (s.coll.buffers.at i).length < batch' i
          · rw [State.retuneBatch_lowered_left hon hlowered (.inr hshort)]
            exact h.frees hbatch hrange hsame (.inl hshort) herase h.full h.fits
          · by_cases hroom : s.coll.queue.length < 12
            · rw [State.retuneBatch_lowered_forms hon hlowered hin (Nat.not_lt.1 hshort) hroom]
              exact h.form hroom hbatch hrange _ false
            · rw [State.retuneBatch_lowered_stalls hon hlowered hin (Nat.not_lt.1 hshort) (Nat.not_lt.1 hroom)]
              exact h.stalls hbatch hrange hsame hon.ne' (Nat.not_lt.1 hshort) (h.each i).held hin rfl rfl (Nat.not_lt.1 hroom)
      · by_cases hshort : (s.coll.buffers.at i).length < batch' i
        · rw [State.retuneBatch_raised_short hraised hshort]
          exact h.frees hbatch hrange hsame (.inl hshort) rfl h.full h.fits
        · have hlong := Nat.not_lt.1 hshort
          have hwas : batch i ≠ 0 := fun hwas => by
            rw [(h.each i).off hwas] at hlong
            exact hon.not_ge hlong
          rw [State.retuneBatch_raised_full hraised hlong]
          exact h.staysStalled hbatch hrange ((h.each i).stalled.2 ⟨hwas, hraised.le.trans hlong⟩) hon.ne' hlong

/-- A report that leaves the queue makes room for that of the stall list head (R116). -/
theorem Collector.lawful.releaseStall {r : Report} {reports : List Report} (hq : s.coll.queue = r :: reports) :
    (s.withColl { s.coll with queue := reports }).releaseStall.coll.lawful batch := by
  have hcount : reports.length + 1 = s.coll.queue.length := by rw [hq, List.length_cons]
  have hfits := h.fits
  cases hstalls : s.coll.stallList with
  | nil =>
    rw [State.releaseStall_empty (s := s.withColl { s.coll with queue := reports }) hstalls]
    exact ⟨fun j => ⟨(h.each j).stalled, (h.each j).off, (h.each j).range, (h.each j).held⟩, h.nodup,
      fun hne => absurd hstalls hne, show reports.length ≤ 12 by omega⟩
  | cons j stalled =>
    rw [State.releaseStall_head (s := s.withColl { s.coll with queue := reports }) hstalls]
    have hqueue : (({ s.coll with queue := reports, stallList := stalled } : Collector).form j (s.stream j).generation
        false).queue.length = reports.length + 1 := List.length_append
    refine h.frees (i := j) (fun _ _ => rfl) (h.each j).range rfl (.inr rfl) ?_ (fun hne => ?_) (hqueue.trans_le (by omega))
    · show stalled = s.coll.stallList.erase j
      rw [hstalls, List.erase_cons_head]
    · exact hqueue.trans (hcount.trans (h.full hne))

/-- A close frees its stream, whatever becomes of its buffer (R122). -/
theorem Collector.lawful.closesTo {o : Opening} {drainEnded : Bool} {t : State} (hclose : s.closesTo i o drainEnded t)
    (hbatch : ∀ j, j ≠ i → batch' j = batch j) (hclosed : batch' i = 0) : t.coll.lawful batch' := by
  obtain ⟨-, -, -, -, -, -, -, hstalls, hbuffers, -, hqueue, -⟩ := hclose
  have hfits := h.fits
  refine h.frees hbatch (hclosed.trans_le (Nat.zero_le _)) hbuffers (.inr rfl) hstalls (fun hne => ?_) ?_
  · rw [hqueue, if_neg fun hroom => hne (h.room hroom.2), List.append_nil, h.full hne]
  · rw [hqueue, List.length_append]
    split
    · next hroom => exact hroom.2
    · exact hfits

end Operations

end Sys2Proof.Machine
end

section
/-! SUPPORT. What can happen to the Return Collector and the batches of the streams, said once; and the commands, each as a
sequence of it. -/

namespace Sys2Proof.Machine

/-! ## The changes -/

/-- What a command can do to the Return Collector and the batches: nothing; a record handed on (R112), a TUNE (R119 to R121), a
report formed with room (R114), a report picked (R116); a stream opened or closed (R7, R122); all blank (R110). -/
inductive State.collects : State → State → Prop where
  | keeps {s t : State} (coll : t.coll = s.coll) (batch : ∀ i, t.batchOf i = s.batchOf i) : State.collects s t
  | trans {s t u : State} (first : State.collects s t) (second : State.collects t u) : State.collects s u
  | hands {s : State} {i : StreamId} {o : Opening} (opened : s.opening i = some o) (r : ReturnRecord) :
      State.collects s (s.handRecord i o.collectBatch r)
  | tunes {s : State} {q : TuneRequest} {i : StreamId} {o : Opening} (opened : s.opening i = some o)
      (good : q.rangesGood o.ringSize) : State.collects s (s.applyTune q i o)
  | reports {s : State} (i : StreamId) (final : Bool) (room : s.coll.queue.length < 12) :
      State.collects s (s.withColl (s.coll.form i (s.stream i).generation final))
  | picks {s : State} {r : Report} {reports : List Report} (head : s.coll.queue = r :: reports) :
      State.collects s (s.withColl { s.coll with queue := reports }).releaseStall
  | opens {s : State} {q : OpenRequest} {i : StreamId} (f : Frame) (accepted : s.openRefusal q i = none) :
      State.collects s (s.acceptOpen f q i)
  | closes {s : State} {i : StreamId} {o : Opening} (opened : s.opening i = some o) (drainEnded : Bool) :
      State.collects s (s.closeStream i drainEnded)
  | blanks {s t : State} (coll : t.coll = {}) (closed : ∀ i, t.opening i = none) : State.collects s t

/-- The records and the Return Collector stand. -/
theorem State.collects_same {s t : State} (hs : t.streams = s.streams) (hc : t.coll = s.coll) : s.collects t :=
  .keeps hc fun _ => State.batchOf_congr (by unfold State.opening State.stream; rw [hs])

theorem State.collects.refl (s : State) : s.collects s := State.collects_same rfl rfl

theorem State.collects_ite {s t u : State} {p : Prop} [Decidable p] (ht : s.collects t) (hu : s.collects u) :
    s.collects (if p then t else u) := by
  split
  · exact ht
  · exact hu

theorem State.collects_onlyIf {s t : State} (due : Bool) (h : s.collects t) : s.collects (s.onlyIf due t) :=
  State.collects_ite h (.refl s)

namespace State.collects

variable {s t u : State}

/-- A change of the other blocks behind it. -/
theorem same (h : s.collects t) (hs : u.streams = t.streams) (hc : u.coll = t.coll) : s.collects u :=
  h.trans (State.collects_same hs hc)

theorem withRing (h : s.collects t) (r : RingStore) : s.collects (t.withRing r) := h.same rfl rfl
theorem withPlans (h : s.collects t) (p : PlanStore) : s.collects (t.withPlans p) := h.same rfl rfl
theorem withBus (h : s.collects t) (b : CycleEngine) : s.collects (t.withBus b) := h.same rfl rfl
theorem withLink (h : s.collects t) (l : FeedLink) : s.collects (t.withLink l) := h.same rfl rfl
theorem withReq (h : s.collects t) (v : RequestUnit) : s.collects (t.withReq v) := h.same rfl rfl
theorem withNotices (h : s.collects t) (i : StreamId) (n : StreamNotices) : s.collects (t.withNotices i n) := h.withReq _
theorem replyTo (h : s.collects t) (f : Frame) (status : Status) (result : ReplyResult) :
    s.collects (t.replyTo f status result) := h.withReq _
theorem defer (h : s.collects t) (f : Frame) (job : PendingJob) : s.collects (t.defer f job) := h.withReq _

theorem withCounters (h : s.collects t) (i : StreamId) (c : StreamCounters) : s.collects (t.withCounters i c) :=
  h.trans (.keeps rfl fun j => State.batchOf_congr (t.opening_withCounters i j c))

/-- A record rewritten under its batch. -/
theorem withStream (h : s.collects t) {i : StreamId} {r : StreamRec} {o : Opening} (ho : t.opening i = some o)
    (hr : r.opening.map (·.collectBatch) = some o.collectBatch) : s.collects (t.withStream i r) := by
  refine h.trans (.keeps rfl fun j => ?_)
  have hj := t.opening_withStream i j r
  split at hj
  · next hji =>
    obtain ⟨p, hp, hbatch⟩ := Option.map_eq_some_iff.1 hr
    rw [State.batchOf_open (hj.trans hp), hji, State.batchOf_open ho, hbatch]
  · exact State.batchOf_congr hj

theorem withOpening (h : s.collects t) {i : StreamId} {o p : Opening} (ho : t.opening i = some o)
    (hb : p.collectBatch = o.collectBatch) : s.collects (t.withOpening i (some p)) := h.withStream ho (congrArg some hb)

/-- One stream rewritten under its batch, and the Return Collector left. -/
theorem retuned (h : s.collects t) {i : StreamId} {r : StreamRec} {o : Opening} (ho : t.opening i = some o)
    (hr : r.opening.map (·.collectBatch) = some o.collectBatch) (n : StreamNotices) :
    s.collects (t.retuned i r n t.coll) := (h.withStream ho hr).withNotices i n

/-! ## Closes, swaps and the stop of the bus -/

theorem closeStream (h : s.collects t) (i : StreamId) (drainEnded : Bool) : s.collects (t.closeStream i drainEnded) := by
  cases ho : t.opening i with
  | none => rwa [State.closeStream_closed ho]
  | some o => exact h.trans (.closes ho drainEnded)

theorem endDrains (h : s.collects t) (p : Opening → Bool) : s.collects (t.endDrains p) :=
  State.endDrains_induct (P := s.collects) (fun _ i _ hu _ _ _ => hu.closeStream i true) h

theorem recount (h : s.collects t) (p : Plan) : s.collects (t.recount p) := by
  refine h.trans (.keeps (t.recount_coll p) fun i => ?_)
  unfold State.batchOf
  rw [State.opening_recount]
  cases t.opening i <;> rfl

theorem applySwap (h : s.collects t) : s.collects t.applySwap :=
  ((h.withPlans { t.plans with active := t.plans.staged, staged := [] }).recount _).endDrains _

theorem settleSwap (h : s.collects t) (cycle : Option Half) : s.collects (t.settleSwap cycle) := by
  unfold State.settleSwap
  split
  · exact (h.applySwap.withPlans _).withReq _
  · exact h

theorem stopBus (h : s.collects t) : s.collects t.stopBus :=
  ((h.withBus t.bus.halted).settleSwap none).endDrains _

theorem afterOutcome (h : s.collects t) : s.collects t.afterOutcome := by
  have hended : s.collects (t.withBus t.bus.cycleEnded) := h.withBus _
  unfold State.afterOutcome State.endCycle
  exact State.collects_ite (State.collects_ite (hended.stopBus.withReq _) hended) h

end State.collects

/-! ## Requests that leave the collection -/

section Parts

variable (f : Frame) (s : State)

theorem handleHello_collects : s.collects (handleHello f s) := by
  unfold handleHello
  split <;> exact State.collects_same rfl rfl

theorem handleQuery_collects : s.collects (handleQuery f s) := by
  unfold handleQuery
  repeat' split
  all_goals exact State.collects_same rfl rfl

theorem handleStage_collects : s.collects (handleStage f s) := by
  unfold handleStage
  repeat' split
  all_goals exact State.collects_same rfl rfl

theorem handleStart_collects : s.collects (handleStart f s) := by
  unfold handleStart
  repeat' split
  all_goals exact State.collects_same rfl rfl

theorem handlePeriod_collects : s.collects (handlePeriod f s) := by
  unfold handlePeriod
  repeat' split
  all_goals exact State.collects_same rfl rfl

theorem State.countBadForm_collects (l : FeedLink) (status : Status) :
    s.collects (if tagOf f = 0 then s.withLink l else s.refuse f status) :=
  State.collects_ite (State.collects_same rfl rfl) (State.collects_same rfl rfl)

theorem handleUnknownKind_collects : s.collects (handleUnknownKind f s) := s.countBadForm_collects f _ _

theorem State.countersOf_collects (clear : Bool) (target : CountersTarget) : s.collects (s.countersOf f clear target) := by
  have hself := State.collects.refl s
  cases target with
  | stream i =>
    have hcleared : s.collects (if clear then s.clearStreamCounters i else s) :=
      State.collects_ite (hself.withCounters i {}) hself
    exact hcleared.replyTo f _ _
  | global =>
    have hcleared : s.collects (if clear then s.clearGlobalCounters else s) :=
      State.collects_ite (State.collects_same rfl rfl) hself
    exact hcleared.replyTo f _ _

theorem handleCounters_collects : s.collects (handleCounters f s) := by
  unfold handleCounters
  split
  · exact State.collects_same rfl rfl
  · split
    · exact State.collects_same rfl rfl
    · exact s.countersOf_collects f _ _

end Parts

/-! ## Requests about streams -/

theorem State.onOpen_collects {s : State} {f : Frame} {b : Byte} {k : StreamId → Opening → State}
    (hk : ∀ i o, s.opening i = some o → s.collects (k i o)) : s.collects (s.onOpen f b k) := by
  unfold State.onOpen
  split
  · exact State.collects_same rfl rfl
  · next i _ =>
    split
    · exact State.collects_same rfl rfl
    · next o ho => exact hk i o ho

section Requests

variable (f : Frame) (s : State)

theorem handleOpen_collects : s.collects (handleOpen f s) := by
  unfold handleOpen
  split
  · exact State.collects_same rfl rfl
  · split
    · exact State.collects_same rfl rfl
    · split
      · exact State.collects_same rfl rfl
      · next haccepted => exact .opens f haccepted

theorem State.closeNow_collects (i : StreamId) : s.collects (s.closeNow f i) :=
  ((State.collects.refl s).closeStream i false).replyTo f _ _

theorem handleCloseAtOnce_collects : s.collects (handleCloseAtOnce f s) := by
  unfold handleCloseAtOnce
  split
  · exact State.collects_same rfl rfl
  · exact State.onOpen_collects fun i _ _ => s.closeNow_collects f i

theorem State.drainOrClose_collects {i : StreamId} {o : Opening} (ho : s.opening i = some o) :
    s.collects (s.drainOrClose f i o) := by
  have hclosed := s.closeNow_collects f i
  unfold State.drainOrClose
  split
  · exact hclosed
  · exact hclosed
  · exact hclosed
  · exact State.collects_same rfl rfl
  · have hdrains : s.collects (s.withOpening i (some { o with phase := .draining })) :=
      (State.collects.refl s).withOpening ho rfl
    exact State.collects_ite hclosed (State.collects_ite (State.collects_same rfl rfl) (hdrains.defer f _))

theorem handleCloseWithDrain_collects : s.collects (handleCloseWithDrain f s) := by
  unfold handleCloseWithDrain
  split
  · exact State.collects_same rfl rfl
  · exact State.onOpen_collects fun i o ho => s.drainOrClose_collects f ho

theorem handleResumeWithoutSequence_collects : s.collects (handleResumeWithoutSequence f s) := by
  unfold handleResumeWithoutSequence
  split
  · exact State.collects_same rfl rfl
  · refine State.onOpen_collects fun i o ho => ?_
    have hresumed : s.collects (s.withOpening i (some { o with missRun := 0, phase := o.resumedPhase })) :=
      (State.collects.refl s).withOpening ho rfl
    exact State.collects_ite (hresumed.replyTo f _ _) (State.collects_same rfl rfl)

theorem handleResumeWithStartSequence_collects : s.collects (handleResumeWithStartSequence f s) := by
  unfold handleResumeWithStartSequence
  split
  · exact State.collects_same rfl rfl
  · exact State.collects_same rfl rfl
  · next start _ =>
    refine State.onOpen_collects fun i o ho => ?_
    have hrestarted : s.collects (s.withOpening i (some (o.restarted start))) := (State.collects.refl s).withOpening ho rfl
    exact State.collects_ite (State.collects_same rfl rfl)
      (State.collects_ite (State.collects_same rfl rfl) ((hrestarted.withRing _).defer f _))

theorem handleTune_collects : s.collects (handleTune f s) := by
  unfold handleTune
  split
  · exact State.collects_same rfl rfl
  · next q _ =>
    refine State.onOpen_collects fun i o ho => ?_
    unfold State.tuneStream
    split
    · exact State.collects_same rfl rfl
    · split
      · exact State.collects_same rfl rfl
      · next hrange =>
        have hgood : q.rangesGood o.ringSize := (q.rangesGood_iff _).2 (by simpa using hrange)
        exact (State.collects.tunes ho hgood).replyTo f _ _

/-- A FLUSH reports the buffer only while the report queue has room (R118). -/
theorem State.flushStream_collects (i : StreamId) (o : Opening) : s.collects (s.flushStream f i o) := by
  unfold State.flushStream
  split
  · exact State.collects_same rfl rfl
  · split
    · exact State.collects_same rfl rfl
    · split
      · exact State.collects_same rfl rfl
      · next hroom => exact (State.collects.reports i false (Nat.not_le.1 hroom)).replyTo f _ _

theorem handleFlush_collects : s.collects (handleFlush f s) := by
  unfold handleFlush
  split
  · exact State.collects_same rfl rfl
  · exact State.onOpen_collects fun i o _ => s.flushStream_collects f i o

/-! ## Swaps, the stop of the bus, and the soft reset -/

theorem handleSwap_collects : s.collects (handleSwap f s) := by
  have hself := State.collects.refl s
  unfold handleSwap
  split
  · exact State.collects_same rfl rfl
  · exact State.collects_ite (State.collects_same rfl rfl) (State.collects_ite (State.collects_same rfl rfl)
      (State.collects_ite (hself.applySwap.replyTo f _ _)
        (State.collects_ite (State.collects_same rfl rfl) (State.collects_same rfl rfl))))

theorem handleHalt_collects : s.collects (handleHalt f s) := by
  unfold handleHalt
  split
  · exact State.collects_same rfl rfl
  · split
    · exact State.collects_same rfl rfl
    · exact State.collects_same rfl rfl
    · exact State.collects_ite (State.collects_ite (State.collects_same rfl rfl) (State.collects_same rfl rfl))
        ((State.collects.refl s).stopBus.replyTo f _ _)

theorem handleReset_collects : s.collects (handleReset f s) := by
  unfold handleReset
  split
  · exact State.collects_same rfl rfl
  · exact .blanks rfl fun i => State.opening_softReset _ i

/-! ## Bundles -/

theorem State.collects.acknowledge {s t : State} (h : s.collects t) (f : Frame) (i : StreamId) (status : Status)
    (n : PlaceCounts) : s.collects (t.acknowledge f i status n) := State.collects_ite h (h.replyTo f _ _)

theorem State.classifyBundle_collects {q : BundleRequest} {o : Opening} (ho : s.opening q.stream = some o) :
    s.collects (s.classifyBundle f q o) := by
  have hplaced : s.collects (s.withRing (s.classified q o).2) := State.collects_same rfl rfl
  rw [State.classifyBundle_eq]
  exact State.collects.acknowledge (hplaced.retuned ho rfl _) f _ _ _

theorem State.takeBundle_collects (q : BundleRequest) : s.collects (s.takeBundle f q) := by
  have hself := State.collects.refl s
  have hrefused : s.collects (s.refuseBundle f q) := (hself.withCounters _ _).acknowledge f _ _ _
  unfold State.takeBundle
  split
  · have hcounted : s.collects (s.withGlobals { s.req.globals with bundlesForClosed := s.req.globals.bundlesForClosed + 1 }) :=
      State.collects_same rfl rfl
    exact hcounted.acknowledge f _ _ _
  · next o ho =>
    split
    · exact hrefused
    · exact hrefused
    · exact s.classifyBundle_collects f ho
    · exact s.classifyBundle_collects f ho
    · exact s.classifyBundle_collects f ho

theorem handleBundle_collects : s.collects (handleBundle f s) := by
  unfold handleBundle
  split
  · exact s.countBadForm_collects f _ _
  · exact s.takeBundle_collects f _

end Requests

/-! ## Sweeps, visits and outcomes -/

section Events

variable (s : State)

theorem State.voidNext_collects (i : StreamId) (voided : Nat) : s.collects (s.voidNext i voided) := by
  unfold State.voidNext
  split
  · exact .refl s
  · next o ho =>
    split
    · exact .refl s
    · next b _ =>
      have hvoided := (State.collects.refl s).withRing (s.ring.voidedOne i voided b)
      refine State.collects_ite ?_ hvoided
      exact ((hvoided.withOpening (p := o.swept) ((s.opening_withRing _ i).trans ho) rfl).withReq _).withRing _

theorem State.consumingVisit_collects {i : StreamId} {o : Opening} (ho : s.opening i = some o) :
    s.collects (s.consumingVisit i o) := by
  have hconsumed : ∀ r, s.collects (s.withRing r) := fun r => State.collects_same rfl rfl
  unfold State.consumingVisit
  split
  · next v r _ => exact ((hconsumed r).withOpening (p := o.afterFresh v) ho rfl).withCounters i _
  · next r _ =>
    split
    · exact ((hconsumed r).withCounters i _).closeStream i true
    · rw [State.staleVisit_eq]
      exact (hconsumed r).retuned ho rfl _

theorem State.visited_collects (i : StreamId) : s.collects (s.visited i) := by
  unfold State.visited
  split
  · exact .refl s
  · next o ho =>
    split
    · exact .refl s
    · exact .refl s
    · exact .refl s
    · exact s.consumingVisit_collects ho
    · exact s.consumingVisit_collects ho

theorem State.runSlot_collects (k : Nat) (e : PlanEntry) : s.collects (s.runSlot k e) := by
  cases e with
  | idle => exact State.collects_same rfl rfl
  | stream i => exact (s.visited_collects i).withBus _

/-- An attributed outcome is counted under the stream's batch, and its record handed on (R81). -/
theorem State.collected_collects {i : StreamId} {o : Opening} (ho : s.opening i = some o) (slot : Nat) (x : ReturnOutcome) :
    s.collects (s.collected i o slot x) := by
  have hmarked : (s.markOutcome i o x).opening i = some { o with silentRun := silentRunAfter o.silentRun x } := by
    rw [State.markOutcome_eq, State.opening_retuned_self]
    rfl
  have hcounted : s.collects (s.markOutcome i o x) := by
    rw [State.markOutcome_eq]
    exact (State.collects.refl s).retuned (r := s.markedRecord i o x) ho rfl _
  exact hcounted.trans (.hands hmarked (s.returnRecord slot x))

theorem State.takeOutcome_collects (r : SlotRecord) (x : ReturnOutcome) : s.collects (s.takeOutcome r x) := by
  unfold State.takeOutcome
  split
  · exact State.collects_ite (.refl s) (State.collects_same rfl rfl)
  · split
    · exact State.collects_same rfl rfl
    · next o ho => exact State.collects_ite (s.collected_collects ho r.index x) (State.collects_same rfl rfl)

theorem State.endSlot_collects (r : SlotRecord) (x : ReturnOutcome) : s.collects (s.endSlot r x) :=
  State.collects.afterOutcome (State.collects.withBus (s.takeOutcome_collects r x) _)

/-- Only the pick of a report reaches the collection (R139). -/
theorem State.pickOf_collects (choice : PickChoice) : s.collects (s.pickOf choice) := by
  cases choice with
  | report =>
    show s.collects s.pickReport
    cases hq : s.coll.queue with
    | nil =>
      rw [State.pickReport_none hq]
      exact .refl s
    | cons r reports =>
      rw [State.pickReport_head hq]
      exact ((State.collects.picks hq).withLink _).withLink _
  | reply =>
    show s.collects s.pickReply
    unfold State.pickReply
    split <;> exact State.collects_same rfl rfl
  | linkNotice => exact State.collects_same rfl rfl
  | streamNotice i k => exact State.collects_same rfl rfl

/-! ## Bytes of the feed link -/

theorem State.takeLength_collects (b : Byte) (crc : Half) : s.collects (s.takeLength b crc) :=
  State.collects_ite (State.collects_same rfl rfl) (State.collects_same rfl rfl)

theorem State.takeCheck_collects (good : Prop) [Decidable good] (taken : Frame) :
    s.collects (if good then (s.withRx .hunt).offer taken else (s.withRx .hunt).badCheck) :=
  State.collects_ite (State.collects_ite (State.collects_same rfl rfl) (State.collects_same rfl rfl))
    (State.collects_same rfl rfl)

end Events

/-! ## Every command -/

theorem handleHead_collects {c : Instr} {handle : Frame → State → State}
    (hh : ∀ (f : Frame) (s : State), s.collects (handle f s)) {s t : State} (h : handleHead c handle s = .next t) :
    s.collects t := by
  rcases handleHead_cases c handle s with hnone | ⟨f, rest, -, -, hsome⟩
  · rw [hnone] at h
    cases h
    exact .refl s
  · rw [hsome] at h
    cases h
    have hbegin : s.collects (s.beginHandling f) := State.collects_same rfl rfl
    exact (hbegin.trans (hh f _)).withReq _

/-- Every command is a sequence of the changes of State.collects. -/
theorem exec_collects {c : Instr} {s t : State} (h : exec c s = .next t) : s.collects t := by
  cases c with
  | powerOnReset cause rate1 rate0 =>
    have hon : ∀ rate low, s.collects (s.powerOn rate low) := fun rate low => .blanks rfl (s.opening_powerOn rate low)
    cases h
    split
    · exact hon _ _
    · exact hon _ _
    · exact State.collects_onlyIf _ (hon _ _)
  | rstRelease rate1 rate0 => cases h; exact State.collects_onlyIf _ (State.collects_same rfl rfl)
  | syncByte => cases h; exact State.collects_onlyIf _ (State.collects_same rfl rfl)
  | huntByte b => cases h; exact State.collects_onlyIf _ (State.collects_same rfl rfl)
  | lengthByte b =>
    cases h
    split
    · exact State.collects_onlyIf _ (s.takeLength_collects b _)
    · exact .refl s
  | bodyByte b =>
    cases h
    split
    · exact State.collects_onlyIf _ (State.collects_same rfl rfl)
    · exact .refl s
  | highCheckByte b =>
    cases h
    split
    · exact State.collects_onlyIf _ (State.collects_same rfl rfl)
    · exact .refl s
  | lowCheckByte b =>
    cases h
    split
    · exact State.collects_onlyIf _ (s.takeCheck_collects _ _)
    · exact .refl s
  | interByteTimeout => cases h; exact State.collects_onlyIf _ (State.collects_same rfl rfl)
  | hello => exact handleHead_collects handleHello_collects h
  | openStream => exact handleHead_collects handleOpen_collects h
  | closeAtOnce => exact handleHead_collects handleCloseAtOnce_collects h
  | closeWithDrain => exact handleHead_collects handleCloseWithDrain_collects h
  | resumeWithoutSequence => exact handleHead_collects handleResumeWithoutSequence_collects h
  | resumeWithStartSequence => exact handleHead_collects handleResumeWithStartSequence_collects h
  | tune => exact handleHead_collects handleTune_collects h
  | query => exact handleHead_collects handleQuery_collects h
  | counters => exact handleHead_collects handleCounters_collects h
  | flush => exact handleHead_collects handleFlush_collects h
  | stage => exact handleHead_collects handleStage_collects h
  | swap => exact handleHead_collects handleSwap_collects h
  | start => exact handleHead_collects handleStart_collects h
  | halt => exact handleHead_collects handleHalt_collects h
  | period => exact handleHead_collects handlePeriod_collects h
  | reset => exact handleHead_collects handleReset_collects h
  | bundle => exact handleHead_collects handleBundle_collects h
  | unknownKind => exact handleHead_collects handleUnknownKind_collects h
  | blockVoided =>
    cases h
    split
    · exact .refl s
    · exact State.collects_onlyIf _ (s.voidNext_collects _ _)
  | cycleStart =>
    cases h
    split
    · exact .refl s
    · exact State.collects_onlyIf _ (((State.collects.refl s).settleSwap _).withBus _)
  | slotEvent =>
    cases h
    split
    · exact .refl s
    · exact State.collects_onlyIf _ (s.runSlot_collects _ _)
  | slotOutcome ret =>
    cases h
    split
    · exact .refl s
    · exact State.collects_onlyIf _ (s.endSlot_collects _ _)
  | pick =>
    cases h
    split
    · exact .refl s
    · exact State.collects_onlyIf _ (s.pickOf_collects _)
  | frameSent =>
    cases h
    split
    · exact .refl s
    · exact State.collects_onlyIf _ (State.collects_same rfl rfl)
  | clockStops => cases h; exact State.collects_same rfl rfl
  | clockReturns => cases h; exact State.collects_same rfl rfl

theorem step_collects {s t : State} (h : step s = .next t) : s.collects t := by
  unfold step at h
  split at h
  · cases h
    exact State.collects_onlyIf _ (State.collects_same rfl rfl)
  · next c rest _ =>
    have hfront : s.collects (s.withPending rest) := State.collects_same rfl rfl
    exact hfront.trans (exec_collects h)

end Sys2Proof.Machine
end

section
/-! SUPPORT. The laws of the Return Collector, change by change. -/

namespace Sys2Proof.Machine

theorem State.handRecord_batchOf (s : State) (i : StreamId) (batch : Nat) (r : ReturnRecord) (j : StreamId) :
    (s.handRecord i batch r).batchOf j = s.batchOf j := by
  obtain ⟨c, d, hhand, -⟩ := s.handRecord_frame i batch r
  rw [hhand]
  exact State.batchOf_congr (s.opening_withCounters i j c)

theorem State.releaseStall_batchOf (s : State) (j : StreamId) : s.releaseStall.batchOf j = s.batchOf j := by
  unfold State.releaseStall
  split <;> rfl

/-- After a TUNE the stream has the new batch, and every other its own. -/
theorem State.applyTune_batchOf (s : State) (q : TuneRequest) (i : StreamId) (o : Opening) :
    (s.applyTune q i o).batchOf i = (o.tuned q).collectBatch ∧
      ∀ j, j ≠ i → (s.applyTune q i o).batchOf j = s.batchOf j := by
  rw [State.applyTune_eq]
  refine ⟨State.batchOf_open (o := o.afterTune q) (State.opening_retuned_self ..), fun j hj => State.batchOf_congr ?_⟩
  unfold State.opening
  rw [State.stream_retuned_ne _ _ _ _ _ hj]

theorem Opening.tuned_collectBatch_le {o : Opening} {q : TuneRequest} (h : o.collectBatch ≤ 16)
    (hq : q.rangesGood o.ringSize) : (o.tuned q).collectBatch ≤ 16 := by
  obtain ⟨-, -, hbatch⟩ := hq
  rw [Opening.tuned_collectBatch]
  split
  · exact h
  · next b hb => exact hbatch b hb

/-- A TUNE keeps the laws under the batches it leaves (R119 to R121). -/
theorem State.lawful_applyTune {s : State} {q : TuneRequest} {i : StreamId} {o : Opening} (h : s.coll.lawful s.batchOf)
    (ho : s.opening i = some o) (hq : q.rangesGood o.ringSize) :
    (s.applyTune q i o).coll.lawful (s.applyTune q i o).batchOf := by
  obtain ⟨hself, hothers⟩ := s.applyTune_batchOf q i o
  have hold := State.batchOf_open ho
  have hrange : (s.applyTune q i o).batchOf i ≤ 16 :=
    hself.trans_le (Opening.tuned_collectBatch_le (hold ▸ (h.each i).range) hq)
  have hretuned := h.retuneBatch hothers hrange
  rw [hself, hold, ← (s.rebatched_eq q i o).1] at hretuned
  have hcoll : (s.applyTune q i o).coll = (s.rebatched q i o).coll := by rw [State.applyTune_eq, State.retuned_coll]
  rwa [hcoll]

/-- A stream opens with a batch in its range and an empty buffer (R6 (2), R7, R110). -/
theorem State.lawful_acceptOpen {s : State} {q : OpenRequest} {i : StreamId} (f : Frame) (h : s.coll.lawful s.batchOf)
    (haccepted : s.openRefusal q i = none) : (s.acceptOpen f q i).coll.lawful (s.acceptOpen f q i).batchOf := by
  obtain ⟨hrange, hclosed, -⟩ := State.openRefusal_accepts haccepted
  obtain ⟨-, -, -, -, -, -, -, -, hbatch⟩ := of_decide_eq_true hrange
  have hwas := State.batchOf_closed hclosed
  have hempty := (h.each i).off hwas
  have hfree : i ∉ s.coll.stallList := fun hin => ((h.each i).stalled.1 hin).1 hwas
  have hbuffers : s.coll.buffers = s.coll.buffers.put i [] := by rw [← hempty, PerStream.put_at]
  refine h.frees (i := i) (fun j hj => State.batchOf_congr (s.opening_acceptOpen_ne f q hj)) ?_ hbuffers (.inr rfl)
    (List.erase_of_not_mem hfree).symm h.full h.fits
  rw [State.batchOf_open (s.opening_acceptOpen_self f q i)]
  exact hbatch

theorem State.lawful_blank {t : State} (hcoll : t.coll = {}) (hclosed : ∀ i, t.opening i = none) :
    t.coll.lawful t.batchOf := by
  rw [hcoll]
  refine ⟨fun i => ?_, List.nodup_nil, fun hne => absurd rfl hne, Nat.zero_le _⟩
  have hempty : ({} : Collector).buffers.at i = [] := PerStream.at_replicate ..
  rw [State.batchOf_closed (hclosed i)]
  exact ⟨iff_of_false (List.not_mem_nil) fun hon => hon.1 rfl, fun _ => hempty, Nat.zero_le _, by simp [hempty]⟩

/-- Every change keeps the laws of the Return Collector. -/
theorem State.collects.lawful {s t : State} (h : s.collects t) (hs : s.coll.lawful s.batchOf) : t.coll.lawful t.batchOf := by
  induction h with
  | keeps hcoll hbatch =>
    rw [hcoll, funext hbatch]
    exact hs
  | trans _ _ ihfirst ihsecond => exact ihsecond (ihfirst hs)
  | @hands s i o ho r =>
    rw [funext (s.handRecord_batchOf i o.collectBatch r), ← State.batchOf_open ho]
    exact hs.handRecord r
  | tunes ho hgood => exact State.lawful_applyTune hs ho hgood
  | reports i final hroom => exact hs.form hroom (fun _ _ => rfl) (hs.each i).range _ final
  | picks hq =>
    rw [funext (State.releaseStall_batchOf _)]
    exact hs.releaseStall hq
  | opens f haccepted => exact State.lawful_acceptOpen f hs haccepted
  | closes ho drainEnded =>
    refine hs.closesTo (State.closeStream_closesTo ho drainEnded)
      (fun j hj => State.batchOf_congr (State.opening_closeStream_ne ho drainEnded hj)) (State.batchOf_closed ?_)
    rw [State.opening_closeStream ho, if_pos rfl]
  | blanks hcoll hclosed => exact State.lawful_blank hcoll hclosed

/-- Settles O58: a step is a sequence of changes, and each keeps the laws. -/
theorem everyStepKeepsStallList : Obligations.EveryStepKeepsStallList := by
  intro s t h hs
  exact t.stallsOk_iff.2 ((step_collects h).lawful (s.stallsOk_iff.1 hs))

end Sys2Proof.Machine
end

section
/-! SUPPORT. The receive framer byte by byte (R127 to R131): what each byte of a frame does in service, and a whole frame fed. -/

namespace Sys2Proof.Machine

/-! ## The LINK fault -/

/-- A LINK fault raises the LINK cell by 1, holding (R133, R142). -/
theorem State.linkFault_eq (s : State) : s.linkFault = s.linkRaised := by
  have hcount : holdAdd s.req.link.count 1 =
      if s.req.link.count = 0xFFFFFFFF#32 then 0xFFFFFFFF#32 else s.req.link.count + 1 := by
    rw [holdAdd_one]
    exact ite_congr rfl id fun _ => rfl
  unfold State.linkFault NoticeCell.raise State.linkRaised
  rw [hcount]
  rfl

/-! ## The framer and the events in service -/

/-- A framer already in a state goes nowhere when it is sent there. -/
theorem State.withRx_self {s : State} {rx : RxFramer} (hrx : s.link.rx = rx) : s.withRx rx = s := by
  subst hrx
  rfl

theorem State.inService.withRx {s : State} (hs : s.inService) (rx : RxFramer) : (s.withRx rx).inService := hs

/-- What happens only in service happens in service. -/
theorem State.inService.onlyIf {s : State} (hs : s.inService) (t : State) : s.onlyIf s.live t = t := by
  rw [s.live_iff.2 hs, State.onlyIf_true]

/-- What is due in service happens. -/
theorem State.inService.onlyIf_due {s : State} (hs : s.inService) {due : Prop} [Decidable due] (h : due) (t : State) :
    s.onlyIf (s.live && decide due) t = t := by
  rw [s.live_iff.2 hs, decide_eq_true h, Bool.and_self, State.onlyIf_true]

/-! ## In HUNT (R127) -/

theorem exec_syncByte {s : State} (hs : s.inService) (hrx : s.link.rx = .hunt) :
    exec .syncByte s = .next (s.withRx (.length 0xFFFF#16)) :=
  congrArg Host.Outcome.next (hs.onlyIf_due hrx _)

theorem exec_huntByte {s : State} {b : Byte} (hs : s.inService) (hrx : s.link.rx = .hunt) (hb : b ≠ 0xB4#8) :
    exec (.huntByte b) s = .next (s.withLinkCounters s.link.counters.countHunt) :=
  congrArg Host.Outcome.next (hs.onlyIf_due ⟨hrx, hb⟩ _)

theorem byteCommand_hunt_of_ne {b : Byte} (hb : b ≠ 0xB4#8) : byteCommand .hunt b = .huntByte b := if_neg hb

/-- Inside a frame every byte belongs to it (R127 to R129). -/
theorem byteCommand_inFrame {rx : RxFramer} (hrx : rx ≠ .hunt) (b : Byte) :
    byteCommand rx b ≠ .syncByte ∧ ∀ d, byteCommand rx b ≠ .huntByte d := by
  cases rx with
  | hunt => exact absurd rfl hrx
  | length crc => exact ⟨nofun, nofun⟩
  | body len taken crc => exact ⟨nofun, nofun⟩
  | checkHigh taken crc => exact ⟨nofun, nofun⟩
  | checkLow taken high crc => exact ⟨nofun, nofun⟩

/-- Settles O6: the two bytes of HUNT, and the commands of bytes by the framer's state. -/
theorem huntTakesSyncAndCountsHuntBytes : Obligations.HuntTakesSyncAndCountsHuntBytes := by
  intro s hs
  refine ⟨fun hrx => ⟨exec_syncByte hs hrx, rfl, fun b hb => exec_huntByte hs hrx hb⟩, rfl,
    fun b hb => byteCommand_hunt_of_ne hb, fun rx b hrx => byteCommand_inFrame hrx b⟩

/-! ## The length byte (R128) -/

theorem exec_lengthByte {s : State} {crc : Half} (hs : s.inService) (hrx : s.link.rx = .length crc) (b : Byte) :
    exec (.lengthByte b) s = .next (s.takeLength b crc) := by
  show execLengthByte b s = _
  unfold execLengthByte
  rw [hrx]
  exact congrArg Host.Outcome.next (hs.onlyIf _)

theorem State.takeLength_good {b : Byte} (hb : 2 ≤ b.toNat ∧ b.toNat ≤ 250) (s : State) (crc : Half) :
    s.takeLength b crc = s.withRx (.body b.toNat [] (crcByte crc b)) := if_pos hb

theorem State.takeLength_bad {b : Byte} (hb : b.toNat < 2 ∨ 250 < b.toNat) (s : State) (crc : Half) :
    s.takeLength b crc = s.badLength := if_neg (by omega)

/-- Settles O7: the two cases of takeLength. -/
theorem lengthByteBeginsBodyOrAbandons : Obligations.LengthByteBeginsBodyOrAbandons := by
  intro s b crc hs hrx
  rw [exec_lengthByte hs hrx]
  refine ⟨fun hlow hhigh => ⟨?_, rfl⟩, fun hbad => ⟨?_, rfl⟩⟩
  · rw [State.takeLength_good ⟨hlow, hhigh⟩]
    rfl
  · rw [State.takeLength_bad hbad, State.badLength, State.linkFault_eq]
    rfl

/-! ## Body and check bytes (R129, R131) -/

theorem exec_bodyByte {s : State} {len : Nat} {taken : List Byte} {crc : Half} (hs : s.inService)
    (hrx : s.link.rx = .body len taken crc) (b : Byte) :
    exec (.bodyByte b) s = .next (s.withRx (bodyAfter len (taken ++ [b]) (crcByte crc b))) := by
  show execBodyByte b s = _
  unfold execBodyByte
  rw [hrx]
  exact congrArg Host.Outcome.next (hs.onlyIf _)

theorem bodyAfter_snoc (len : Nat) (taken : List Byte) (b : Byte) (crc : Half) :
    bodyAfter len (taken ++ [b]) crc =
      if taken.length + 1 = len then .checkHigh (taken ++ [b]) crc else .body len (taken ++ [b]) crc := by
  rw [bodyAfter, List.length_append, List.length_singleton]

theorem exec_highCheckByte {s : State} {taken : List Byte} {crc : Half} (hs : s.inService)
    (hrx : s.link.rx = .checkHigh taken crc) (b : Byte) :
    exec (.highCheckByte b) s = .next (s.withRx (.checkLow taken b crc)) := by
  show execHighCheckByte b s = _
  unfold execHighCheckByte
  rw [hrx]
  exact congrArg Host.Outcome.next (hs.onlyIf _)

/-- The last check byte sends the framer to HUNT, and the frame is offered if the check is right (R129). -/
theorem exec_lowCheckByte {s : State} {taken : List Byte} {high : Byte} {crc : Half} (hs : s.inService)
    (hrx : s.link.rx = .checkLow taken high crc) (b : Byte) :
    exec (.lowCheckByte b) s =
      .next (if high ++ b = crc then (s.withRx .hunt).offer taken else (s.withRx .hunt).badCheck) := by
  show execLowCheckByte b s = _
  unfold execLowCheckByte
  rw [hrx]
  exact congrArg Host.Outcome.next (hs.onlyIf _)

/-- A good frame with room joins the tail of the receive buffer (R131). -/
theorem State.offer_room {s : State} (hroom : s.link.rxBuf.length < 8) (f : Frame) :
    s.offer f = s.withLink { s.link with
      rxBuf := s.link.rxBuf ++ [f]
      counters := { s.link.counters with framesReceived := s.link.counters.framesReceived + 1 } } := if_pos hroom

/-- With the receive buffer full a good frame is an overflow (R131). -/
theorem State.offer_full {s : State} (hfull : 8 ≤ s.link.rxBuf.length) (f : Frame) :
    s.offer f =
      (s.withLinkCounters { s.link.counters with overflow := s.link.counters.overflow + 1 }).linkRaised := by
  rw [State.offer, if_neg (Nat.not_lt.2 hfull), State.linkFault_eq]

theorem State.badCheck_eq (s : State) :
    s.badCheck = (s.withLinkCounters { s.link.counters with badCheck := s.link.counters.badCheck + 1 }).linkRaised :=
  State.linkFault_eq _

/-- Settles O8: a body byte, the first check byte, and the three ends of a frame at the second one. -/
theorem bodyAndCheckBytesEndFrame : Obligations.BodyAndCheckBytesEndFrame := by
  intro s b hs
  refine ⟨fun len taken crc hrx => ?_, fun taken crc hrx => exec_highCheckByte hs hrx b,
    fun taken high crc hrx hgood hroom => ?_, fun taken high crc hrx hgood hfull => ?_,
    fun taken high crc hrx hbad => ?_, fun _ _ _ => ⟨rfl, rfl⟩⟩
  · rw [exec_bodyByte hs hrx, bodyAfter_snoc]
    rfl
  · rw [exec_lowCheckByte hs hrx, if_pos hgood, State.offer_room (s := s.withRx .hunt) hroom]
    rfl
  · rw [exec_lowCheckByte hs hrx, if_pos hgood, State.offer_full (s := s.withRx .hunt) hfull]
    rfl
  · rw [exec_lowCheckByte hs hrx, if_neg hbad, State.badCheck_eq]
    rfl

/-! ## The inter-byte timer (R130) -/

theorem exec_interByteTimeout (s : State) :
    exec .interByteTimeout s = .next (s.onlyIf (s.live && s.link.rx.timerRunning) s.timeOut) := rfl

theorem RxFramer.timerRunning_iff (rx : RxFramer) : rx.timerRunning = true ↔ rx ≠ .hunt := by
  cases rx <;> simp [RxFramer.timerRunning]

/-- Settles O9: the timer runs exactly outside HUNT. -/
theorem timeoutAbandonsFrame : Obligations.TimeoutAbandonsFrame := by
  intro s hs
  rw [exec_interByteTimeout, s.live_iff.2 hs, Bool.true_and]
  refine ⟨fun hrx => ?_, fun hrx => ?_⟩
  · rw [(RxFramer.timerRunning_iff _).2 hrx, State.onlyIf_true, State.timeOut, State.linkFault_eq]
    rfl
  · rw [hrx, RxFramer.timerRunning, State.onlyIf_false]

/-! ## A whole frame, byte by byte (R126) -/

theorem State.after_of_exec {s t : State} {c : Instr} (h : exec c s = .next t) : s.after c = t := by
  rw [State.after, h]

/-- The first byte of a run is the command that the framer's state makes of it. -/
theorem State.feed_cons {s t : State} (b : Byte) {rx : RxFramer} (hrx : s.link.rx = rx)
    (h : exec (byteCommand rx b) s = .next t) (bs : List Byte) : s.feed (b :: bs) = t.feed bs := by
  subst hrx
  rw [State.feed, State.after_of_exec h]

theorem State.feed_append (s : State) (bs cs : List Byte) : s.feed (bs ++ cs) = (s.feed bs).feed cs := by
  induction bs generalizing s with
  | nil => rfl
  | cons b bs ih => exact ih _

/-- The rest of a body, fed whole, is taken and runs through the CRC, and the framer comes to CHECK HIGH (R129). -/
theorem State.feed_body {s : State} {len : Nat} {taken bs : List Byte} {crc : Half} (hs : s.inService)
    (hrx : s.link.rx = .body len taken crc) (hne : bs ≠ []) (hlen : taken.length + bs.length = len) :
    s.feed bs = s.withRx (.checkHigh (taken ++ bs) (bs.foldl crcByte crc)) := by
  induction bs generalizing s taken crc with
  | nil => exact absurd rfl hne
  | cons b bs ih =>
    rw [State.feed_cons b hrx (exec_bodyByte hs hrx b), bodyAfter_snoc]
    rw [List.length_cons] at hlen
    cases bs with
    | nil =>
      rw [if_pos (show taken.length + 1 = len from hlen)]
      rfl
    | cons b' bs =>
      rw [List.length_cons] at hlen
      rw [if_neg (by omega), ih (hs.withRx _) rfl (List.cons_ne_nil _ _) (by simp; omega), List.append_assoc]
      rfl

/-- The two check bytes end the frame (R129). -/
theorem State.feed_check {s : State} {taken : List Byte} {crc : Half} (hs : s.inService)
    (hrx : s.link.rx = .checkHigh taken crc) (h l : Byte) :
    s.feed [h, l] = if h ++ l = crc then (s.withRx .hunt).offer taken else (s.withRx .hunt).badCheck := by
  rw [State.feed_cons h hrx (exec_highCheckByte hs hrx h),
    State.feed_cons l (rx := .checkLow taken h crc) rfl (exec_lowCheckByte (hs.withRx _) rfl l)]
  rfl

theorem toNat_byteOf {n : Nat} (h : n < 256) : (byteOf n).toNat = n := (BitVec.toNat_ofNat n 8).trans (Nat.mod_eq_of_lt h)

/-- A frame in the form of R126, fed in HUNT, is offered to the receive buffer if its check is right, and is a bad check
otherwise. -/
theorem State.feed_frame {s : State} {f : Frame} (hs : s.inService) (hrx : s.link.rx = .hunt) (hlow : 2 ≤ f.length)
    (hhigh : f.length ≤ 250) (h l : Byte) :
    s.feed (0xB4#8 :: byteOf f.length :: (f ++ [h, l])) =
      if h ++ l = crc16 (byteOf f.length :: f) then s.offer f else s.badCheck := by
  have hlen : (byteOf f.length).toNat = f.length := toNat_byteOf (by omega)
  have hbody : f ≠ [] := List.ne_nil_of_length_pos (by omega)
  calc s.feed (0xB4#8 :: byteOf f.length :: (f ++ [h, l]))
    _ = (s.withRx (.length 0xFFFF#16)).feed (byteOf f.length :: (f ++ [h, l])) :=
      State.feed_cons 0xB4#8 hrx (exec_syncByte hs hrx) _
    _ = (s.withRx (.body f.length [] (crcByte 0xFFFF#16 (byteOf f.length)))).feed (f ++ [h, l]) := by
      rw [State.feed_cons _ (rx := .length 0xFFFF#16) rfl (exec_lengthByte (hs.withRx _) rfl _),
        State.takeLength_good (by omega), hlen]
      rfl
    _ = (s.withRx (.checkHigh f (crc16 (byteOf f.length :: f)))).feed [h, l] := by
      rw [State.feed_append, State.feed_body (hs.withRx _) rfl hbody (Nat.zero_add _)]
      rfl
    _ = if h ++ l = crc16 (byteOf f.length :: f) then (s.withRx .hunt).offer f else (s.withRx .hunt).badCheck :=
      State.feed_check (hs.withRx _) rfl h l
    _ = if h ++ l = crc16 (byteOf f.length :: f) then s.offer f else s.badCheck := by rw [State.withRx_self hrx]

/-- The check bytes of a frame sent join to its CRC (R126). -/
theorem frameBytes_eq {body : List Byte} {c1 c0 : Byte} (hc : c1 ++ c0 = crc16 (byteOf body.length :: body)) :
    frameBytes body = 0xB4#8 :: byteOf body.length :: (body ++ [c1, c0]) := by
  rw [frameBytes, (bytes16_eq_iff _ c1 c0).2 hc]

/-- A frame sent is offered to the receive buffer when it is fed in HUNT (R126, R131). -/
theorem State.feed_frameBytes {s : State} {f : Frame} (hs : s.inService) (hrx : s.link.rx = .hunt) (hlow : 2 ≤ f.length)
    (hhigh : f.length ≤ 250) : s.feed (frameBytes f) = s.offer f := by
  have hcheck := (bytes16_eq_iff (crc16 (byteOf f.length :: f)) _ _).1 rfl
  rw [frameBytes_eq hcheck, State.feed_frame hs hrx hlow hhigh, if_pos hcheck]

/-- Settles O10: the frame fed is offered with room or without, and a bad check is none. -/
theorem framedBytesReachReceiveBuffer : Obligations.FramedBytesReachReceiveBuffer := by
  intro s f hs hrx hlow hhigh
  refine ⟨fun hroom => ?_, fun hfull => ?_, fun h l hbad => ?_⟩
  · rw [State.feed_frameBytes hs hrx hlow hhigh, State.offer_room hroom]
    rfl
  · rw [State.feed_frameBytes hs hrx hlow hhigh, State.offer_full hfull]
    rfl
  · rw [State.feed_frame hs hrx hlow hhigh, if_neg hbad, State.badCheck_eq]
    rfl

end Sys2Proof.Machine
end

section
/-! SUPPORT. The release of RST, the clock input, and the part at rest (R125, R141, R165). -/

namespace Sys2Proof.Machine

/-! ## A part that takes no events -/

theorem State.live_eq_false {s : State} (h : s.clockRunning = false ∨ s.rstLow = true) : s.live = false := by
  rcases h with h | h <;> simp [State.live, h]

section Rest

variable {s : State}

theorem State.onlyIf_rests (h : s.live = false) (t : State) : s.onlyIf s.live t = s := by rw [h, State.onlyIf_false]

theorem State.onlyIf_due_rests (h : s.live = false) (due : Bool) (t : State) : s.onlyIf (s.live && due) t = s := by
  rw [h, Bool.false_and, State.onlyIf_false]

/-- No frame is taken (R144, R165). -/
theorem handleHead_rests (h : s.live = false) (c : Instr) (handle : Frame → State → State) : handleHead c handle s = .next s := by
  rcases handleHead_cases c handle s with hnone | ⟨f, rest, htake, -, -⟩
  · exact hnone
  · rw [htake.live] at h
    exact Bool.noConfusion h

/-- A part without clock or in reset takes no command but those of the pins (R141, R165; log 7). -/
theorem exec_rests (h : s.live = false) {c : Instr} (hpower : ∀ cause r1 r0, c ≠ .powerOnReset cause r1 r0)
    (hrelease : ∀ r1 r0, c ≠ .rstRelease r1 r0) (hstops : c ≠ .clockStops) (hreturns : c ≠ .clockReturns) :
    exec c s = .next s := by
  cases c with
  | powerOnReset cause rate1 rate0 => exact absurd rfl (hpower cause rate1 rate0)
  | rstRelease rate1 rate0 => exact absurd rfl (hrelease rate1 rate0)
  | clockStops => exact absurd rfl hstops
  | clockReturns => exact absurd rfl hreturns
  | syncByte | huntByte _ | interByteTimeout => exact congrArg Host.Outcome.next (State.onlyIf_due_rests h _ _)
  | lengthByte _ | bodyByte _ | highCheckByte _ | lowCheckByte _ =>
    refine congrArg Host.Outcome.next ?_
    split
    · exact State.onlyIf_rests h _
    · rfl
  | hello | openStream | closeAtOnce | closeWithDrain | resumeWithoutSequence | resumeWithStartSequence | tune | query
  | counters | flush | stage | swap | start | halt | period | reset | bundle | unknownKind => exact handleHead_rests h _ _
  | blockVoided | slotOutcome _ | frameSent =>
    refine congrArg Host.Outcome.next ?_
    split
    · rfl
    · exact State.onlyIf_rests h _
  | cycleStart | slotEvent | pick =>
    refine congrArg Host.Outcome.next ?_
    split
    · rfl
    · exact State.onlyIf_due_rests h _ _

end Rest

/-! ## The release of RST -/

theorem exec_rstRelease (s : State) (rate1 rate0 : Bool) :
    exec (.rstRelease rate1 rate0) s = .next (s.onlyIf s.rstLow (s.released (rateOfStraps rate1 rate0))) := rfl

/-- Settles O4: the release by the level of RST, the two commands of the clock, and the part at rest. -/
theorem releaseReadsStrapsAndStoppedPartRests : Obligations.ReleaseReadsStrapsAndStoppedPartRests := by
  refine ⟨fun s rate1 rate0 hlow => ?_, fun s rate1 rate0 hhigh => ?_, fun _ => rfl, fun _ => rfl,
    fun s c hrest => exec_rests (State.live_eq_false hrest)⟩
  · rw [exec_rstRelease, hlow, State.onlyIf_true, rateOfStraps_eq]
    rfl
  · rw [exec_rstRelease, hhigh, State.onlyIf_false]

end Sys2Proof.Machine
end

section
/-! SUPPORT. The pick of a reply and of a notice (R134, R137 to R139, R156), the choice going round the streams, and when there
is no pick (R136). -/

namespace Sys2Proof.Machine

/-! ## The choice of a reply or of a notice (R137) -/

section Choice

variable {s : State}

/-- A reply goes ahead of every notice (R137 (2)). -/
theorem State.pickChoice_reply (hdue : ¬ (s.link.sinceReport = 4 ∧ s.coll.queue ≠ [])) (hreplies : s.req.replyQueue ≠ []) :
    s.pickChoice = some .reply := by
  rw [State.pickChoice, if_neg hdue, if_pos hreplies]

/-- The LINK notice goes ahead of the streams' (R137 (3)). -/
theorem State.pickChoice_linkNotice (hdue : ¬ (s.link.sinceReport = 4 ∧ s.coll.queue ≠ [])) (hreplies : s.req.replyQueue = [])
    (hlink : s.req.link.flag = true) : s.pickChoice = some .linkNotice := by
  rw [State.pickChoice, if_neg hdue, if_neg (not_not.2 hreplies), if_pos hlink]

/-- A stream's notice goes ahead of the reports that are not due (R137 (4)). -/
theorem State.pickChoice_streamNotice (hdue : ¬ (s.link.sinceReport = 4 ∧ s.coll.queue ≠ []))
    (hreplies : s.req.replyQueue = []) (hlink : s.req.link.flag = false) {i : StreamId} {k : NoticeKind}
    (hround : s.noticeChoice = some (i, k)) : s.pickChoice = some (.streamNotice i k) := by
  rw [State.pickChoice, if_neg hdue, if_neg (not_not.2 hreplies), if_neg (Bool.eq_false_iff.1 hlink), hround]

end Choice

/-! ## The round (R138) -/

theorem StreamNotices.firstPending_state {n : StreamNotices} (hstate : n.state.flag = true) :
    n.firstPending = some .state := if_pos hstate

theorem StreamNotices.firstPending_discard {n : StreamNotices} (hstate : n.state.flag = false)
    (hdiscard : n.discard.flag = true) : n.firstPending = some .discard := by
  rw [StreamNotices.firstPending, if_neg (Bool.eq_false_iff.1 hstate), if_pos hdiscard]

theorem StreamNotices.firstPending_silent {n : StreamNotices} (hstate : n.state.flag = false)
    (hdiscard : n.discard.flag = false) (hsilent : n.silent.flag = true) : n.firstPending = some .silent := by
  rw [StreamNotices.firstPending, if_neg (Bool.eq_false_iff.1 hstate), if_neg (Bool.eq_false_iff.1 hdiscard), if_pos hsilent]

/-- A stream that does not wait has no pending notice. -/
theorem StreamNotices.firstPending_eq_none {n : StreamNotices}
    (h : ¬ (n.state.flag = true ∨ n.discard.flag = true ∨ n.silent.flag = true)) : n.firstPending = none :=
  Option.not_isSome_iff_eq_none.1 (mt n.firstPending_isSome.1 h)

/-- The round finds the first stream with a pending notice, counted from the one after last notice stream (R138). -/
theorem State.noticeChoice_first {s : State} {i : StreamId} {k : NoticeKind} (hk : (s.noticesOf i).firstPending = some k)
    (hfirst : ∀ j : StreamId, (j - (s.link.lastNotice + 1)).val < (i - (s.link.lastNotice + 1)).val →
      (s.noticesOf j).firstPending = none) : s.noticeChoice = some (i, k) := by
  have hplace (j : StreamId) : s.link.lastNotice + 1 + (j - (s.link.lastNotice + 1)) = j := add_sub_cancel ..
  rw [State.noticeChoice, noticeRound, allStreams, List.findSome?_map, ← Fin.findSome?_eq_findSome?_finRange,
    Fin.findSome?_eq_some_iff]
  refine ⟨i - (s.link.lastNotice + 1), ?_, fun d hd => ?_⟩
  · rw [Function.comp_apply, hplace, State.pendingNotice, hk, Option.map_some]
  · have hnone := hfirst (s.link.lastNotice + 1 + d) (by rwa [add_sub_cancel_left])
    rw [Function.comp_apply, State.pendingNotice, hnone, Option.map_none]

/-! ## No pick -/

theorem exec_pick_none {s : State} (h : s.pickChoice = none) : exec .pick s = .next s := by
  show execPick s = _
  rw [execPick, h]

/-- While a frame is being sent there is no pick (R136; log 1). -/
theorem exec_pick_busy {s : State} (h : s.link.tx ≠ .idle) : exec .pick s = .next s := by
  show execPick s = _
  unfold execPick
  cases s.pickChoice with
  | none => rfl
  | some c => simp only [decide_eq_false h, Bool.and_false, State.onlyIf_false]

/-- With no source that holds a frame there is no pick (R136; log 1). -/
theorem exec_pick_noSource {s : State} (hreplies : s.req.replyQueue = []) (hlink : s.req.link.flag = false)
    (hnotices : ∀ i, (s.noticesOf i).firstPending = none) (hq : s.coll.queue = []) : exec .pick s = .next s := by
  refine exec_pick_none (Option.not_isSome_iff_eq_none.1 ?_)
  rw [s.pickChoice_isSome]
  simp [State.sourceHolds, hreplies, hlink, hnotices, hq]

/-! ## The pick of a reply -/

theorem State.pickReply_head {s : State} {r : Reply} {replies : List Reply} (h : s.req.replyQueue = r :: replies) :
    s.pickReply = ((s.withReq { s.req with replyQueue := replies }).countFrame).send (r.body s.credits) := by
  rw [State.pickReply, h]

/-- Settles O47: the choice falls on the reply, and its pick leaves the queue; the bytes are those of Reply.body. -/
theorem replyPickedBeforeNotices : Obligations.ReplyPickedBeforeNotices := by
  refine ⟨fun s r replies hs hidle hreplies hdue => ?_, fun _ _ => rfl, rfl, rfl, rfl,
    fun st bus g n p a b c d cycle => ⟨rfl, rfl, rfl, rfl, rfl, rfl, rfl, rfl, rfl, rfl, rfl, rfl⟩, fun _ _ _ => rfl,
    fun b3 b2 b1 b0 => ⟨bytes16_append b1 b0, bytes32_append b3 b2 b1 b0⟩⟩
  have hchoice := State.pickChoice_reply hdue (hreplies ▸ List.cons_ne_nil r replies)
  have hexec : exec .pick s = .next s.pickReply := exec_pick hs hidle hchoice
  rw [hexec, State.pickReply_head hreplies]
  rfl

/-! ## The pick of a notice -/

section Body

variable (credits : Nat) (i : StreamId) (count : Word) (st : StreamState)

/-- A STATE notice carries the stream's state (R163). -/
theorem noticeBody_state : noticeBody credits .state i count st =
    [0x41, 0, byteOf credits, 1, byteOf i.val] ++ bytes32 count ++ [st.code] := rfl

theorem noticeBody_discard : noticeBody credits .discard i count st =
    [0x41, 0, byteOf credits, 2, byteOf i.val] ++ bytes32 count ++ [] := rfl

theorem noticeBody_silent : noticeBody credits .silent i count st =
    [0x41, 0, byteOf credits, 3, byteOf i.val] ++ bytes32 count ++ [] := rfl

end Body

/-- Settles O48: the LINK notice, the notice of the first stream in the round by its first kind, and no source. -/
theorem noticePickedInRound : Obligations.NoticePickedInRound := by
  intro s hs hidle hreplies hdue credits waits since
  refine ⟨fun hlink => exec_pick hs hidle (State.pickChoice_linkNotice hdue hreplies hlink),
    fun i hlink _ hfirst => ?_,
    fun hlink hnone hq => exec_pick_noSource hreplies hlink (fun j => StreamNotices.firstPending_eq_none (hnone j)) hq⟩
  have hpick (k : NoticeKind) (hk : (s.noticesOf i).firstPending = some k) : exec .pick s = .next (s.pickNotice i k) :=
    exec_pick hs hidle (State.pickChoice_streamNotice hdue hreplies hlink
      (State.noticeChoice_first hk fun j hj => StreamNotices.firstPending_eq_none (hfirst j hj)))
  refine ⟨fun hstate => ?_, fun hstate hdiscard => ?_, fun hstate hdiscard hsilent => ?_⟩
  · rw [hpick .state (StreamNotices.firstPending_state hstate), State.pickNotice, noticeBody_state]
    rfl
  · rw [hpick .discard (StreamNotices.firstPending_discard hstate hdiscard), State.pickNotice, noticeBody_discard]
    rfl
  · rw [hpick .silent (StreamNotices.firstPending_silent hstate hdiscard hsilent), State.pickNotice, noticeBody_silent]
    rfl

end Sys2Proof.Machine
end

section
/-! SUPPORT. The end of a frame sent (R135) and the levels of FTX (R125, R165). -/

namespace Sys2Proof.Machine

/-! ## The frame gone out -/

theorem exec_frameSent_sending {s : State} {bytes : List Byte} (hs : s.inService) (htx : s.link.tx = .sending bytes) :
    exec .frameSent s = .next (s.frameOut bytes) := by
  show execFrameSent s = _
  unfold execFrameSent
  rw [htx]
  exact congrArg Host.Outcome.next (hs.onlyIf _)

theorem exec_frameSent_idle {s : State} (htx : s.link.tx = .idle) : exec .frameSent s = .next s := by
  show execFrameSent s = _
  rw [execFrameSent, htx]

/-- With a source that holds a frame the run goes on (R135; log 16). -/
theorem State.runAfter_holds {s : State} (h : s.sourceHolds = true) (bytes : List Byte) :
    s.runAfter bytes = s.link.runSent + 10 * bytes.length := if_pos h

/-- With no source that holds a frame the run ends (R135; log 16). -/
theorem State.runAfter_ends {s : State} (h : ¬ s.sourceHolds = true) (bytes : List Byte) : s.runAfter bytes = 0 := if_neg h

/-! ## FTX -/

/-- FTX is held at the stop level while nothing is sent and while RST is low (R135, R165). -/
theorem State.ftx_rests {s : State} (h : s.link.tx = .idle ∨ s.rstLow = true) (clk : Nat) : s.ftx clk = true := by
  unfold State.ftx
  split
  · rfl
  · next hrst =>
    rw [h.resolve_right hrst]
    rfl

/-- In bit time `n` of a frame FTX has the level of the frame's bit `n`, and the stop level after the last (R125). -/
theorem State.ftx_sending {s : State} {bytes : List Byte} {rate : LinkRate} {n clk : Nat} (htx : s.link.tx = .sending bytes)
    (hrate : s.link.rate = some rate) (hrst : s.rstLow = false)
    (hcome : rate.edge (s.link.runSent + n) ≤ rate.edge s.link.runSent + clk)
    (hnext : rate.edge s.link.runSent + clk < rate.edge (s.link.runSent + n + 1)) :
    s.ftx clk = ((runBits bytes)[n]?).getD true := by
  have hbit : rate.bitAt (rate.edge s.link.runSent + clk) - s.link.runSent = n := by
    rw [(rate.bitAt_eq_iff _ _).2 ⟨hcome, hnext⟩, Nat.add_sub_cancel_left]
  simp only [State.ftx, hrst, htx, hrate, hbit, List.getD_eq_getElem?_getD]
  rfl

/-- Settles O49: the frame gone out with a source or without, the pick while it is sent, the frame's form, and the levels and
edges of the line. -/
theorem frameSentFreesTransmitter : Obligations.FrameSentFreesTransmitter := by
  refine ⟨fun s hs => ⟨fun bytes htx => ⟨fun hholds => ?_, fun hends => ?_, ?_⟩, exec_frameSent_idle⟩,
    fun body c1 c0 => frameBytes_eq, fun s clk => ⟨fun hrests => s.ftx_rests hrests clk, fun bytes rate n => State.ftx_sending⟩,
    fun _ => rfl, fun n => ⟨?_, LinkRate.edge_spec .r3 n, LinkRate.edge_spec .r6 n, LinkRate.edge_spec .r12 n⟩,
    LineReceiver.take_byte, LineReceiver.take_stop⟩
  · rw [exec_frameSent_sending hs htx, State.frameOut, State.runAfter_holds (s.sourceHolds_iff.2 hholds)]
    rfl
  · rw [exec_frameSent_sending hs htx, State.frameOut, State.runAfter_ends (mt s.sourceHolds_iff.1 hends)]
    rfl
  · exact exec_pick_busy (by rw [htx]; exact nofun)
  · have hedge : 50 * n ≤ 1 * LinkRate.r1.edge n ∧ 1 * LinkRate.r1.edge n < 50 * n + 1 := LinkRate.edge_spec .r1 n
    omega

end Sys2Proof.Machine
end

section
/-! SUPPORT. What keeps a notice cell in order (R155), and the changes that leave the receive buffer and a notice set in order:
said once of the operations that commands share. -/

namespace Sys2Proof.Machine

/-! ## The cells of one stream -/

/-- A count raised by at least 1 is at least 1, held or not (R142). -/
theorem holdAdd_ne_zero (c : Word) {n : Nat} (hn : n ≠ 0) : holdAdd c n ≠ 0 := by
  have hheld : (holdAdd c n).toNat = min (c.toNat + n) 4294967295 :=
    Nat.mod_eq_of_lt ((Nat.min_le_right ..).trans_lt (by decide))
  intro hzero
  have hnone : (0 : Word).toNat = 0 := rfl
  rw [hzero, hnone] at hheld
  omega

theorem NoticeCell.ok_raise (c : NoticeCell) {n : Nat} (hn : n ≠ 0) : (c.raise n).ok :=
  iff_of_true rfl (holdAdd_ne_zero c.count hn)

/-- Every cell of a stream has a count of at least 1 exactly if its flag is set (R155). -/
def StreamNotices.ok (n : StreamNotices) : Prop := n.state.ok ∧ n.discard.ok ∧ n.silent.ok

theorem State.noticesOk.noticesOf {s : State} (h : s.noticesOk) (i : StreamId) : (s.noticesOf i).ok := h.2 i

theorem StreamNotices.ok_clear : StreamNotices.ok {} := ⟨NoticeCell.ok_clear, NoticeCell.ok_clear, NoticeCell.ok_clear⟩

theorem StreamNotices.ok.setCell {n : StreamNotices} (h : n.ok) (k : NoticeKind) {c : NoticeCell} (hc : c.ok) :
    (n.setCell k c).ok := by
  obtain ⟨hstate, hdiscard, hsilent⟩ := h
  cases k with
  | state => exact ⟨hc, hdiscard, hsilent⟩
  | discard => exact ⟨hstate, hc, hsilent⟩
  | silent => exact ⟨hstate, hdiscard, hc⟩

/-- A mask change keeps a cell or clears it (R17). -/
theorem StreamNotices.ok.remask {n : StreamNotices} (h : n.ok) (old new : NoticeMask) : (n.remask old new).ok := by
  have hkept : ∀ (kept : Bool) {c : NoticeCell}, c.ok → (if kept then c else .clear).ok := fun kept c hc => by
    cases kept with
    | false => exact NoticeCell.ok_clear
    | true => exact hc
  obtain ⟨hstate, hdiscard, hsilent⟩ := h
  exact ⟨hkept _ hstate, hkept _ hdiscard, hkept _ hsilent⟩

/-! ## Steady changes -/

/-- The receive buffer stands, and a notice set in order stays so: true of every command but a frame received, power-on reset
and the release of RST, which reach the buffer. -/
def State.steady (s t : State) : Prop := t.link.rxBuf = s.link.rxBuf ∧ (s.noticesOk → t.noticesOk)

theorem State.noticesOk.congr {s t : State} (h : s.noticesOk) (hn : t.req.notices = s.req.notices)
    (hl : t.req.link = s.req.link) : t.noticesOk := by
  unfold State.noticesOk State.noticesOf
  rw [hn, hl]
  exact h

/-- Receive buffer and notice set stand. -/
theorem State.steady_same {s t : State} (hb : t.link.rxBuf = s.link.rxBuf) (hn : t.req.notices = s.req.notices)
    (hl : t.req.link = s.req.link) : s.steady t := ⟨hb, fun h => h.congr hn hl⟩

theorem State.steady.refl (s : State) : s.steady s := ⟨rfl, id⟩

theorem State.steady.trans {s t u : State} (h : s.steady t) (g : t.steady u) : s.steady u :=
  ⟨g.1.trans h.1, g.2 ∘ h.2⟩

theorem State.steady_ite {s t u : State} {p : Prop} [Decidable p] (ht : s.steady t) (hu : s.steady u) :
    s.steady (if p then t else u) := by
  split
  · exact ht
  · exact hu

theorem State.steady_onlyIf {s t : State} (due : Bool) (h : s.steady t) : s.steady (s.onlyIf due t) :=
  State.steady_ite h (.refl s)

namespace State.steady

variable {s t : State}

/-! ## The named updates -/

theorem withRing (h : s.steady t) (r : RingStore) : s.steady (t.withRing r) := h
theorem withPlans (h : s.steady t) (p : PlanStore) : s.steady (t.withPlans p) := h
theorem withBus (h : s.steady t) (b : CycleEngine) : s.steady (t.withBus b) := h
theorem withColl (h : s.steady t) (c : Collector) : s.steady (t.withColl c) := h
theorem withOpening (h : s.steady t) (i : StreamId) (o : Option Opening) : s.steady (t.withOpening i o) := h
theorem withCounters (h : s.steady t) (i : StreamId) (c : StreamCounters) : s.steady (t.withCounters i c) := h
theorem withGlobals (h : s.steady t) (g : GlobalCounters) : s.steady (t.withGlobals g) := h
theorem replyTo (h : s.steady t) (f : Frame) (status : Status) (result : ReplyResult) :
    s.steady (t.replyTo f status result) := h
theorem defer (h : s.steady t) (f : Frame) (job : PendingJob) : s.steady (t.defer f job) := h

/-- The Feed Link Port changed but for its receive buffer. -/
theorem withLink (h : s.steady t) {l : FeedLink} (hl : l.rxBuf = t.link.rxBuf) : s.steady (t.withLink l) :=
  h.trans (State.steady_same hl rfl rfl)

/-- An entry answered touches the reply queue and the pending table alone (R149). -/
theorem answer (h : s.steady t) (p : PendingEntry → Bool) (reply : PendingEntry → Reply) :
    s.steady (t.withReq (t.req.answer p reply)) := by
  rw [RequestUnit.answer_eq]
  exact h

/-- The cells of one stream rewritten in order. -/
theorem withNotices (h : s.steady t) (i : StreamId) {n : StreamNotices} (hn : (t.noticesOf i).ok → n.ok) :
    s.steady (t.withNotices i n) := by
  refine h.trans ⟨rfl, fun ht => ⟨ht.1, fun j => ?_⟩⟩
  rw [State.noticesOf_withNotices]
  split
  · exact hn (ht.noticesOf i)
  · exact ht.noticesOf j

/-! ## Notices, phases and closes -/

/-- A raise by at least 1 (R155). -/
theorem raiseNotice (h : s.steady t) (i : StreamId) (k : NoticeKind) {n : Nat} (hn : n ≠ 0) :
    s.steady (t.raiseNotice i k n) := by
  unfold State.raiseNotice
  split
  · exact h
  · exact State.steady_ite (h.withNotices i fun hi => hi.setCell k (NoticeCell.ok_raise _ hn)) h

theorem linkFault (h : s.steady t) : s.steady t.linkFault :=
  h.trans ⟨rfl, fun ht => ⟨NoticeCell.ok_raise _ Nat.one_ne_zero, ht.2⟩⟩

theorem starve (h : s.steady t) (i : StreamId) (o : Opening) : s.steady (t.starve i o) :=
  ((h.withOpening i _).withCounters i _).raiseNotice i .state Nat.one_ne_zero

theorem startPlaying (h : s.steady t) (i : StreamId) (o : Opening) : s.steady (t.startPlaying i o) :=
  (h.withOpening i _).raiseNotice i .state Nat.one_ne_zero

/-- A close clears the cells of its stream and no other (R12). -/
theorem closeStream (h : s.steady t) (i : StreamId) (drainEnded : Bool) : s.steady (t.closeStream i drainEnded) := by
  cases ho : t.opening i with
  | none => rwa [State.closeStream_closed ho]
  | some o =>
    obtain ⟨-, -, -, -, -, -, hnotices, -, -, -, -, -, -, -, -, -, hlink, hcell, -⟩ :=
      State.closeStream_closesTo ho drainEnded
    have hcleared : s.steady (t.withNotices i {}) := h.withNotices i fun _ => StreamNotices.ok_clear
    exact hcleared.trans (State.steady_same (by rw [hlink]; rfl) hnotices hcell)

theorem endDrains (h : s.steady t) (p : Opening → Bool) : s.steady (t.endDrains p) :=
  State.endDrains_induct (P := s.steady) (fun _ i _ hu _ _ _ => hu.closeStream i true) h

/-! ## Swaps and the stop of the bus -/

theorem recount (h : s.steady t) (p : Plan) : s.steady (t.recount p) :=
  h.trans (State.steady_same (by rw [State.recount_link]) (by rw [State.recount_req]) (by rw [State.recount_req]))

theorem applySwap (h : s.steady t) : s.steady t.applySwap :=
  ((h.withPlans { t.plans with active := t.plans.staged, staged := [] }).recount _).endDrains _

theorem settleSwap (h : s.steady t) (cycle : Option Half) : s.steady (t.settleSwap cycle) := by
  unfold State.settleSwap
  split
  · exact (h.applySwap.withPlans _).answer _ _
  · exact h

theorem stopBus (h : s.steady t) : s.steady t.stopBus := ((h.withBus t.bus.halted).settleSwap none).endDrains _

theorem afterOutcome (h : s.steady t) : s.steady t.afterOutcome := by
  have hended : s.steady (t.withBus t.bus.cycleEnded) := h.withBus _
  unfold State.afterOutcome State.endCycle
  exact State.steady_ite (State.steady_ite (hended.stopBus.answer _ _) hended) h

end State.steady

end Sys2Proof.Machine
end

section
/-! SUPPORT. Every handling and every event is steady; and the notice set, which every step keeps in order (R155). -/

namespace Sys2Proof.Machine

/-! ## Requests about streams -/

theorem State.onOpen_steady {s : State} {f : Frame} {b : Byte} {k : StreamId → Opening → State}
    (hk : ∀ i o, s.steady (k i o)) : s.steady (s.onOpen f b k) := by
  unfold State.onOpen
  split
  · exact State.steady_same rfl rfl rfl
  · split
    · exact State.steady_same rfl rfl rfl
    · exact hk _ _

section Requests

variable (f : Frame) (s : State)

theorem State.refuse_steady (status : Status) : s.steady (s.refuse f status) := .refl s

theorem State.replyTo_steady (status : Status) (result : ReplyResult) : s.steady (s.replyTo f status result) := .refl s

theorem handleOpen_steady : s.steady (handleOpen f s) := by
  unfold handleOpen
  split
  · exact s.refuse_steady f _
  · split
    · exact s.refuse_steady f _
    · split
      · exact s.refuse_steady f _
      · exact State.steady_same rfl rfl rfl

theorem State.closeNow_steady (i : StreamId) : s.steady (s.closeNow f i) :=
  ((State.steady.refl s).closeStream i false).replyTo f _ _

theorem handleCloseAtOnce_steady : s.steady (handleCloseAtOnce f s) := by
  unfold handleCloseAtOnce
  split
  · exact s.refuse_steady f _
  · exact State.onOpen_steady fun i _ => s.closeNow_steady f i

theorem State.drainOrClose_steady (i : StreamId) (o : Opening) : s.steady (s.drainOrClose f i o) := by
  have hclosed := s.closeNow_steady f i
  unfold State.drainOrClose
  split
  · exact hclosed
  · exact hclosed
  · exact hclosed
  · exact s.refuse_steady f _
  · exact State.steady_ite hclosed (State.steady_ite (s.refuse_steady f _) (State.steady_same rfl rfl rfl))

theorem handleCloseWithDrain_steady : s.steady (handleCloseWithDrain f s) := by
  unfold handleCloseWithDrain
  split
  · exact s.refuse_steady f _
  · exact State.onOpen_steady fun i o => s.drainOrClose_steady f i o

theorem handleResumeWithoutSequence_steady : s.steady (handleResumeWithoutSequence f s) := by
  unfold handleResumeWithoutSequence
  split
  · exact s.refuse_steady f _
  · exact State.onOpen_steady fun i o =>
      State.steady_ite (State.steady_same rfl rfl rfl) (s.replyTo_steady f _ _)

theorem handleResumeWithStartSequence_steady : s.steady (handleResumeWithStartSequence f s) := by
  unfold handleResumeWithStartSequence
  split
  · exact s.refuse_steady f _
  · exact s.refuse_steady f _
  · exact State.onOpen_steady fun i o => State.steady_ite (s.replyTo_steady f _ _)
      (State.steady_ite (s.refuse_steady f _) (State.steady_same rfl rfl rfl))

theorem handleQuery_steady : s.steady (handleQuery f s) := by
  unfold handleQuery
  split
  · exact s.refuse_steady f _
  · split
    · exact s.refuse_steady f _
    · exact s.replyTo_steady f _ _

theorem handleFlush_steady : s.steady (handleFlush f s) := by
  unfold handleFlush
  split
  · exact s.refuse_steady f _
  · exact State.onOpen_steady fun i o => State.steady_ite (s.refuse_steady f _) (State.steady_ite (s.replyTo_steady f _ _)
      (State.steady_ite (s.refuse_steady f _) (State.steady_same rfl rfl rfl)))

end Requests

/-! ## TUNE (R14 to R17) -/

section Tune

variable {s t : State} (h : s.steady t) (i : StreamId)

include h

theorem State.steady.retuneBatch (old new : Nat) : s.steady (t.retuneBatch i old new) := by
  obtain ⟨n, d, hframe⟩ := t.retuneBatch_frame i old new
  rw [hframe]
  exact h

theorem State.steady.comparePlay : s.steady (t.comparePlay i) := by
  unfold State.comparePlay
  split
  · exact h
  · next o _ => exact State.steady_ite (h.startPlaying i o) h

theorem State.steady.compareStarve : s.steady (t.compareStarve i) := by
  unfold State.compareStarve
  split
  · exact h
  · next o _ => exact State.steady_ite (h.starve i o) h

/-- The fields, the cells under the new mask, the batch, and the two comparisons. -/
theorem State.steady.applyTune (q : TuneRequest) (o : Opening) : s.steady (t.applyTune q i o) :=
  ((((h.withOpening i (some (o.tuned q))).withNotices i fun hi => hi.remask o.mask (o.tuned q).mask).retuneBatch i
    o.collectBatch (o.tuned q).collectBatch).comparePlay i).compareStarve i

end Tune

theorem handleTune_steady (f : Frame) (s : State) : s.steady (handleTune f s) := by
  unfold handleTune
  split
  · exact s.refuse_steady f _
  · exact State.onOpen_steady fun i o => State.steady_ite (s.refuse_steady f _) (State.steady_ite (s.refuse_steady f _)
      (((State.steady.refl s).applyTune i _ o).replyTo f _ _))

/-! ## Requests about the part, plans and the bus -/

section Parts

variable (f : Frame) (s : State)

theorem handleHello_steady : s.steady (handleHello f s) := by
  unfold handleHello
  split
  · exact s.refuse_steady f _
  · exact s.replyTo_steady f _ _

theorem State.countersOf_steady (clear : Bool) (target : CountersTarget) : s.steady (s.countersOf f clear target) := by
  cases target with
  | stream i =>
    have hcleared : s.steady (if clear then s.clearStreamCounters i else s) :=
      State.steady_ite (State.steady_same rfl rfl rfl) (.refl s)
    exact hcleared.replyTo f _ _
  | global =>
    have hcleared : s.steady (if clear then s.clearGlobalCounters else s) :=
      State.steady_ite (State.steady_same rfl rfl rfl) (.refl s)
    exact hcleared.replyTo f _ _

theorem handleCounters_steady : s.steady (handleCounters f s) := by
  unfold handleCounters
  split
  · exact s.refuse_steady f _
  · split
    · exact s.refuse_steady f _
    · exact s.countersOf_steady f _ _

theorem State.countBadForm_steady (status : Status) : s.steady (if tagOf f = 0 then
    s.withLink { s.link with counters := { s.link.counters with badForm := s.link.counters.badForm + 1 } }
    else s.refuse f status) :=
  State.steady_ite (State.steady_same rfl rfl rfl) (s.refuse_steady f status)

theorem handleUnknownKind_steady : s.steady (handleUnknownKind f s) := s.countBadForm_steady f _

theorem handleStage_steady : s.steady (handleStage f s) := by
  unfold handleStage
  split
  · exact s.refuse_steady f _
  · split
    · exact s.refuse_steady f _
    · split
      · exact s.refuse_steady f _
      · exact State.steady_same rfl rfl rfl

theorem handleSwap_steady : s.steady (handleSwap f s) := by
  have hself := State.steady.refl s
  unfold handleSwap
  split
  · exact s.refuse_steady f _
  · exact State.steady_ite (s.refuse_steady f _) (State.steady_ite (s.refuse_steady f _)
      (State.steady_ite (hself.applySwap.replyTo f _ _)
        (State.steady_ite (s.refuse_steady f _) (State.steady_same rfl rfl rfl))))

theorem handleStart_steady : s.steady (handleStart f s) := by
  unfold handleStart
  split
  · exact s.refuse_steady f _
  · split
    · exact s.refuse_steady f _
    · exact s.replyTo_steady f _ _
    · exact State.steady_ite (s.refuse_steady f _) (State.steady_same rfl rfl rfl)

theorem handleHalt_steady : s.steady (handleHalt f s) := by
  unfold handleHalt
  split
  · exact s.refuse_steady f _
  · split
    · exact s.replyTo_steady f _ _
    · exact s.refuse_steady f _
    · exact State.steady_ite (State.steady_ite (s.refuse_steady f _) (State.steady_same rfl rfl rfl))
        ((State.steady.refl s).stopBus.replyTo f _ _)

theorem handlePeriod_steady : s.steady (handlePeriod f s) := by
  unfold handlePeriod
  split
  · exact s.refuse_steady f _
  · split
    · exact s.refuse_steady f _
    · exact State.steady_same rfl rfl rfl

/-- A RESET leaves the frames in the receive buffer, and a notice set as it stands after reset (R141, R153). -/
theorem handleReset_steady : s.steady (handleReset f s) := by
  unfold handleReset
  split
  · exact s.refuse_steady f _
  · exact ⟨rfl, fun _ => State.noticesOk_reset.congr rfl rfl⟩

end Parts

/-! ## BUNDLE (R39 to R52) -/

section Bundle

variable {s t : State} (h : s.steady t) (f : Frame)

include h

theorem State.steady.acknowledge (i : StreamId) (status : Status) (n : PlaceCounts) :
    s.steady (t.acknowledge f i status n) := State.steady_ite h (h.replyTo f _ _)

/-- DISCARD is raised only by a bundle with a late or an ahead sample (R50). -/
theorem State.steady.noteDiscards (i : StreamId) (n : PlaceCounts) : s.steady (t.noteDiscards i n) := by
  unfold State.noteDiscards
  split
  · exact h
  · next hlost => exact h.raiseNotice i .discard hlost

theorem State.steady.placeBundle (q : BundleRequest) (o : Opening) : s.steady (t.placeBundle q o) := h

theorem State.steady.classifyBundle (q : BundleRequest) (o : Opening) : s.steady (t.classifyBundle f q o) :=
  (((h.placeBundle q o).comparePlay q.stream).noteDiscards q.stream _).acknowledge f q.stream _ _

end Bundle

theorem State.takeBundle_steady (s : State) (f : Frame) (q : BundleRequest) : s.steady (s.takeBundle f q) := by
  have hself := State.steady.refl s
  have hrefused : s.steady (s.refuseBundle f q) := (hself.withCounters q.stream _).acknowledge f q.stream _ _
  unfold State.takeBundle
  split
  · exact (hself.withGlobals _).acknowledge f q.stream _ _
  · next o _ =>
    have hclassified := hself.classifyBundle f q o
    split
    · exact hrefused
    · exact hrefused
    · exact hclassified
    · exact hclassified
    · exact hclassified

theorem handleBundle_steady (f : Frame) (s : State) : s.steady (handleBundle f s) := by
  unfold handleBundle
  split
  · exact s.countBadForm_steady f _
  · exact s.takeBundle_steady f _

/-! ## Sweeps, visits and outcomes -/

section Events

variable (s : State)

theorem State.voidNext_steady (i : StreamId) (voided : Nat) : s.steady (s.voidNext i voided) := by
  unfold State.voidNext
  split
  · exact .refl s
  · next o _ =>
    split
    · exact .refl s
    · next b _ =>
      have hvoided := (State.steady.refl s).withRing (s.ring.voidedOne i voided b)
      exact State.steady_ite (((hvoided.withOpening i (some o.swept)).answer _ _).withRing _) hvoided

theorem State.consumingVisit_steady (i : StreamId) (o : Opening) : s.steady (s.consumingVisit i o) := by
  have hring := (State.steady.refl s).withRing
  unfold State.consumingVisit
  split
  · next v r _ => exact ((hring r).withOpening i (some (o.afterFresh v))).withCounters i _
  · next r _ =>
    have hstale := ((hring r).withOpening i (some o.afterStale)).withCounters i (s.counters i).countSubstituted
    exact State.steady_ite (((hring r).withCounters i _).closeStream i true)
      (State.steady_ite (hstale.starve i o.afterStale) hstale)

theorem State.visited_steady (i : StreamId) : s.steady (s.visited i) := by
  unfold State.visited
  split
  · exact .refl s
  · split
    · exact .refl s
    · exact .refl s
    · exact .refl s
    · exact s.consumingVisit_steady i _
    · exact s.consumingVisit_steady i _

theorem State.runSlot_steady (k : Nat) (e : PlanEntry) : s.steady (s.runSlot k e) := by
  cases e with
  | idle => exact State.steady_same rfl rfl rfl
  | stream i => exact (s.visited_steady i).withBus _

/-- SILENT is raised by 1 at most, and the record is handed to the Return Collector alone (R81, R82). -/
theorem State.collected_steady (i : StreamId) (o : Opening) (slot : Nat) (x : ReturnOutcome) :
    s.steady (s.collected i o slot x) := by
  have hself := State.steady.refl s
  have hcounted := (hself.withOpening i (some { o with silentRun := silentRunAfter o.silentRun x })).withCounters i
    ((s.counters i).countOutcome x)
  have hmarked : s.steady (s.markOutcome i o x) :=
    State.steady_ite (hcounted.raiseNotice i .silent Nat.one_ne_zero) hcounted
  obtain ⟨c, d, hhand, -⟩ := (s.markOutcome i o x).handRecord_frame i o.collectBatch (s.returnRecord slot x)
  unfold State.collected
  rw [hhand]
  exact (hmarked.withCounters i c).withColl d

theorem State.takeOutcome_steady (r : SlotRecord) (x : ReturnOutcome) : s.steady (s.takeOutcome r x) := by
  have horphan : s.steady s.countOrphan := State.steady_same rfl rfl rfl
  unfold State.takeOutcome
  split
  · exact State.steady_ite (.refl s) (State.steady_same rfl rfl rfl)
  · split
    · exact horphan
    · exact State.steady_ite (s.collected_steady _ _ r.index x) horphan

theorem State.endSlot_steady (r : SlotRecord) (x : ReturnOutcome) : s.steady (s.endSlot r x) :=
  ((s.takeOutcome_steady r x).withBus _).afterOutcome

/-! ## Picks -/

theorem State.releaseStall_steady : s.steady s.releaseStall := by
  unfold State.releaseStall
  split
  · exact .refl s
  · exact State.steady_same rfl rfl rfl

/-- A pick clears the cell it sends (R156). -/
theorem State.pickOf_steady (choice : PickChoice) : s.steady (s.pickOf choice) := by
  have hself := State.steady.refl s
  cases choice with
  | report =>
    show s.steady s.pickReport
    unfold State.pickReport
    split
    · exact hself
    · next reports _ =>
      have hreleased : s.steady (s.withColl { s.coll with queue := reports }).releaseStall :=
        (hself.withColl _).trans (State.releaseStall_steady _)
      exact (hreleased.withLink rfl).withLink rfl
  | reply =>
    show s.steady s.pickReply
    unfold State.pickReply
    split
    · exact hself
    · exact State.steady_same rfl rfl rfl
  | linkNotice =>
    have hcleared : s.steady (s.withReq { s.req with link := .clear }) :=
      ⟨rfl, fun hs => ⟨NoticeCell.ok_clear, hs.2⟩⟩
    exact (hcleared.withLink rfl).withLink rfl
  | streamNotice i k =>
    have hcleared := hself.withNotices i fun hi => hi.setCell k NoticeCell.ok_clear
    exact ((hcleared.withLink rfl).withLink rfl).withLink rfl

end Events

/-! ## Bytes of the feed link -/

theorem State.steady.withRx {s t : State} (h : s.steady t) (rx : RxFramer) : s.steady (t.withRx rx) := h.withLink rfl

theorem State.steady.withLinkCounters {s t : State} (h : s.steady t) (c : LinkCounters) : s.steady (t.withLinkCounters c) :=
  h.withLink rfl

theorem State.takeLength_steady (s : State) (b : Byte) (crc : Half) : s.steady (s.takeLength b crc) := by
  have hself := State.steady.refl s
  exact State.steady_ite (hself.withRx _) (((hself.withRx .hunt).withLinkCounters _).linkFault)

theorem State.timeOut_steady (s : State) : s.steady s.timeOut :=
  (((State.steady.refl s).withRx .hunt).withLinkCounters _).linkFault

/-- A good frame joins the receive buffer, or raises LINK for want of a place (R131). -/
theorem State.noticesOk.offer {s : State} (hs : s.noticesOk) (f : Frame) : (s.offer f).noticesOk := by
  unfold State.offer
  split
  · exact hs.congr rfl rfl
  · exact ((State.steady.refl s).withLinkCounters _).linkFault.2 hs

/-- The check of a frame, good or bad (R129). -/
theorem State.noticesOk.takeCheck {s : State} (hs : s.noticesOk) (good : Prop) [Decidable good] (taken : Frame) :
    (if good then (s.withRx .hunt).offer taken else (s.withRx .hunt).badCheck).noticesOk := by
  have hhunt := (State.steady.refl s).withRx .hunt
  split
  · exact (hhunt.2 hs).offer taken
  · exact (hhunt.withLinkCounters _).linkFault.2 hs

/-! ## Every command -/

theorem handleHead_noticesOk {c : Instr} {handle : Frame → State → State}
    (hh : ∀ (f : Frame) (s : State), s.steady (handle f s)) {s t : State}
    (hs : s.noticesOk) (h : handleHead c handle s = .next t) : t.noticesOk := by
  rcases handleHead_cases c handle s with hnone | ⟨f, rest, -, -, hsome⟩
  · rw [hnone] at h
    cases h
    exact hs
  · rw [hsome] at h
    cases h
    have hbegin : (s.beginHandling f).noticesOk := hs
    exact ((hh f (s.beginHandling f)).2 hbegin).congr rfl rfl

section Commands

variable {s t : State} (hs : s.noticesOk)

include hs

theorem State.noticesOk.onlyIf (due : Bool) (ht : t.noticesOk) : (s.onlyIf due t).noticesOk := by
  rcases s.onlyIf_cases t due with ⟨-, heq⟩ | ⟨-, heq⟩
  · rwa [heq]
  · rwa [heq]

/-- A steady change that is made only where it is due. -/
theorem State.noticesOk.due (due : Bool) (ht : s.steady t) : (s.onlyIf due t).noticesOk := hs.onlyIf due (ht.2 hs)

/-- Every command keeps the notice set in order: each by the lemma of its handling or its event. -/
theorem exec_noticesOk {c : Instr} (h : exec c s = .next t) : t.noticesOk := by
  have hself := State.steady.refl s
  cases c with
  | powerOnReset cause rate1 rate0 =>
    have hon : ∀ rate low, (s.powerOn rate low).noticesOk := fun _ _ => State.noticesOk_reset.congr rfl rfl
    cases h
    split
    · exact hon _ _
    · exact hon _ _
    · exact hs.onlyIf _ (hon _ _)
  | rstRelease rate1 rate0 => cases h; exact hs.onlyIf _ (hs.congr rfl rfl)
  | syncByte => cases h; exact hs.due _ (hself.withRx _)
  | huntByte b => cases h; exact hs.due _ (hself.withLinkCounters _)
  | lengthByte b =>
    cases h
    split
    · exact hs.due _ (s.takeLength_steady b _)
    · exact hs
  | bodyByte b =>
    cases h
    split
    · exact hs.due _ (hself.withRx _)
    · exact hs
  | highCheckByte b =>
    cases h
    split
    · exact hs.due _ (hself.withRx _)
    · exact hs
  | lowCheckByte b =>
    cases h
    split
    · exact hs.onlyIf _ (hs.takeCheck _ _)
    · exact hs
  | interByteTimeout => cases h; exact hs.due _ s.timeOut_steady
  | hello => exact handleHead_noticesOk handleHello_steady hs h
  | openStream => exact handleHead_noticesOk handleOpen_steady hs h
  | closeAtOnce => exact handleHead_noticesOk handleCloseAtOnce_steady hs h
  | closeWithDrain => exact handleHead_noticesOk handleCloseWithDrain_steady hs h
  | resumeWithoutSequence => exact handleHead_noticesOk handleResumeWithoutSequence_steady hs h
  | resumeWithStartSequence => exact handleHead_noticesOk handleResumeWithStartSequence_steady hs h
  | tune => exact handleHead_noticesOk handleTune_steady hs h
  | query => exact handleHead_noticesOk handleQuery_steady hs h
  | counters => exact handleHead_noticesOk handleCounters_steady hs h
  | flush => exact handleHead_noticesOk handleFlush_steady hs h
  | stage => exact handleHead_noticesOk handleStage_steady hs h
  | swap => exact handleHead_noticesOk handleSwap_steady hs h
  | start => exact handleHead_noticesOk handleStart_steady hs h
  | halt => exact handleHead_noticesOk handleHalt_steady hs h
  | period => exact handleHead_noticesOk handlePeriod_steady hs h
  | reset => exact handleHead_noticesOk handleReset_steady hs h
  | bundle => exact handleHead_noticesOk handleBundle_steady hs h
  | unknownKind => exact handleHead_noticesOk handleUnknownKind_steady hs h
  | blockVoided =>
    cases h
    split
    · exact hs
    · exact hs.due _ (s.voidNext_steady _ _)
  | cycleStart =>
    cases h
    split
    · exact hs
    · exact hs.due _ ((hself.settleSwap _).withBus _)
  | slotEvent =>
    cases h
    split
    · exact hs
    · exact hs.due _ (s.runSlot_steady _ _)
  | slotOutcome ret =>
    cases h
    split
    · exact hs
    · exact hs.due _ (s.endSlot_steady _ _)
  | pick =>
    cases h
    split
    · exact hs
    · exact hs.due _ (s.pickOf_steady _)
  | frameSent =>
    cases h
    split
    · exact hs
    · exact hs.due _ (hself.withLink rfl)
  | clockStops => cases h; exact hs.congr rfl rfl
  | clockReturns => cases h; exact hs.congr rfl rfl

end Commands

/-- Settles O57: a step is time passing, which leaves the notice set, or a command. -/
theorem everyStepKeepsNotices : Obligations.EveryStepKeepsNotices := by
  intro s t h hs
  unfold step at h
  split at h
  · cases h
    exact hs.due _ ((State.steady.refl s).withBus _)
  · next c rest _ =>
    have hfront : (s.withPending rest).noticesOk := hs
    exact exec_noticesOk hfront h

end Sys2Proof.Machine
end

section
/-! SUPPORT. Which command takes the head frame, when it waits, and what its take leaves of the receive buffer (R143, R144,
R146, R159). -/

namespace Sys2Proof.Machine

/-! ## The row of a frame -/

theorem frameCommand_hello {f : Frame} (h : kindOf f = 0x01) : frameCommand f = .hello := by
  unfold frameCommand; rw [h]; rfl

theorem frameCommand_counters {f : Frame} (h : kindOf f = 0x07) : frameCommand f = .counters := by
  unfold frameCommand; rw [h]; rfl

theorem frameCommand_reset {f : Frame} (h : kindOf f = 0x0E) : frameCommand f = .reset := by
  unfold frameCommand; rw [h]; rfl

/-- Every kind that is neither a request's nor that of BUNDLE is unknown (R146). -/
theorem frameCommand_unknownKind {f : Frame} (h : kindOf f = 0 ∨ 0x0E < (kindOf f).toNat ∧ kindOf f ≠ 0x20) :
    frameCommand f = .unknownKind := by
  have hkind : (kindOf f).toNat = 0 ∨ 14 < (kindOf f).toNat ∧ (kindOf f).toNat ≠ 32 :=
    h.imp (fun hzero => by rw [hzero]; rfl) (And.imp_right fun hne heq => hne (BitVec.eq_of_toNat_eq heq))
  unfold frameCommand
  split
  any_goals omega
  rfl

theorem needsReply_iff (f : Frame) :
    needsReply f = true ↔ (1 ≤ (kindOf f).toNat ∧ (kindOf f).toNat ≤ 14) ∨ tagOf f ≠ 0 := by
  simp only [needsReply, isRequestKind, Bool.or_eq_true, decide_eq_true_eq]

/-! ## The take -/

/-- The command that takes a frame handles the head of the receive buffer, by a handling that leaves the frames behind it. -/
theorem exec_frameCommand (f : Frame) : ∃ handle : Frame → State → State,
    (∀ s, exec (frameCommand f) s = handleHead (frameCommand f) handle s) ∧
      ∀ (g : Frame) (s : State), s.steady (handle g s) := by
  unfold frameCommand
  split
  · exact ⟨handleHello, fun _ => rfl, handleHello_steady⟩
  · exact ⟨handleOpen, fun _ => rfl, handleOpen_steady⟩
  · split
    · exact ⟨handleCloseWithDrain, fun _ => rfl, handleCloseWithDrain_steady⟩
    · exact ⟨handleCloseAtOnce, fun _ => rfl, handleCloseAtOnce_steady⟩
  · split
    · exact ⟨handleResumeWithStartSequence, fun _ => rfl, handleResumeWithStartSequence_steady⟩
    · exact ⟨handleResumeWithoutSequence, fun _ => rfl, handleResumeWithoutSequence_steady⟩
  · exact ⟨handleTune, fun _ => rfl, handleTune_steady⟩
  · exact ⟨handleQuery, fun _ => rfl, handleQuery_steady⟩
  · exact ⟨handleCounters, fun _ => rfl, handleCounters_steady⟩
  · exact ⟨handleFlush, fun _ => rfl, handleFlush_steady⟩
  · exact ⟨handleStage, fun _ => rfl, handleStage_steady⟩
  · exact ⟨handleSwap, fun _ => rfl, handleSwap_steady⟩
  · exact ⟨handleStart, fun _ => rfl, handleStart_steady⟩
  · exact ⟨handleHalt, fun _ => rfl, handleHalt_steady⟩
  · exact ⟨handlePeriod, fun _ => rfl, handlePeriod_steady⟩
  · exact ⟨handleReset, fun _ => rfl, handleReset_steady⟩
  · exact ⟨handleBundle, fun _ => rfl, handleBundle_steady⟩
  · exact ⟨handleUnknownKind, fun _ => rfl, handleUnknownKind_steady⟩

/-- The frame taken is the head, and the frames behind it are left (R144). -/
theorem State.canTake.rxBuf_tail {s : State} {f : Frame} {rest : List Frame} (h : s.canTake f rest) :
    s.link.rxBuf.tail = rest := by
  obtain ⟨-, -, -, hbuffer, -⟩ := h
  rw [hbuffer, List.tail_cons]

/-- A frame that can be taken is taken: it leaves the receive buffer, and its handling ends in the same claim (R144). -/
theorem State.canTake.exec_takes {s : State} {f : Frame} {rest : List Frame} (h : s.canTake f rest) :
    ∃ t, exec (frameCommand f) s = .next t ∧ t.link.rxBuf = rest ∧ t.req.handling = none := by
  obtain ⟨handle, hexec, hsteady⟩ := exec_frameCommand f
  have hbuffer := (hsteady f (s.beginHandling f)).1
  exact ⟨_, (hexec s).trans (handleHead_of_canTake h rfl handle), hbuffer.trans h.rxBuf_tail, rfl⟩

/-- Settles O11: the rows by their kinds, who needs a reply, the take, the wait for a reply place, and the other rows. -/
theorem headFrameTakenByItsKind : Obligations.HeadFrameTakenByItsKind := by
  refine ⟨fun f => ⟨frameCommand_hello, frameCommand_open, frameCommand_close, frameCommand_resume, frameCommand_tune,
    frameCommand_query, frameCommand_counters, frameCommand_flush, frameCommand_stage, frameCommand_swap, frameCommand_start,
    frameCommand_halt, frameCommand_period, frameCommand_reset, frameCommand_bundle, frameCommand_unknownKind⟩,
    needsReply_iff, fun s f rest h => h.exec_takes, fun s f rest hbuffer hneeds hfull => ?_,
    fun s f g rest hbuffer hrow => ?_⟩
  · obtain ⟨handle, hexec, -⟩ := exec_frameCommand f
    rw [hexec, handleHead_waits _ hbuffer hneeds hfull]
  · obtain ⟨handle, hexec, -⟩ := exec_frameCommand g
    rw [hexec, handleHead_other hbuffer hrow.symm]

end Sys2Proof.Machine
end

section
/-! SUPPORT. HELLO, and frames of unknown kinds (R146, R150). -/

namespace Sys2Proof.Machine

/-! ## HELLO -/

theorem handleHello_badForm {f : Frame} (h : tagOf f = 0 ∨ f.length ≠ 2) (s : State) :
    handleHello f s = s.refuse f .badForm := by
  rw [handleHello, formed_parseBare_none h]

theorem handleHello_formed {f : Frame} (htag : tagOf f ≠ 0) (hl : f.length = 2) (s : State) :
    handleHello f s = s.replyTo f .done (.hello s.ring.freeBlocks.length s.bus.state) := by
  rw [handleHello, formed_parseBare htag hl]

/-- Settles O13: the form by tag and length, and the bytes of the result. -/
theorem helloAnswered : Obligations.HelloAnswered := by
  refine ⟨fun s f rest h hk => ?_, fun _ _ => rfl⟩
  have hc := frameCommand_hello hk
  split
  · next hbad => exact handleHead_badForm h hc hk (handleHello_badForm hbad _)
  · next hgood =>
    obtain ⟨htag, hl⟩ := not_or.1 hgood
    exact handleHead_unnamed h hc hk rfl (handleHello_formed htag (not_not.1 hl) _)

/-! ## Unknown kinds -/

/-- A kind that the part does not take names no stream (R161). -/
theorem namesStream_unknown {k : Byte} (h : k = 0 ∨ 0x0E < k.toNat) (hb : k ≠ 0x20) : namesStream k = false := by
  have hrange : ¬ (2 ≤ k.toNat ∧ k.toNat ≤ 8) := by
    rcases h with rfl | hbig
    · decide
    · omega
  rw [namesStream, decide_eq_false hrange, decide_eq_false hb, Bool.or_self]

/-- Settles O16: with a tag the reply is one that names no stream; with tag 0 only the counter rises. -/
theorem unknownKindAnsweredOrCounted : Obligations.UnknownKindAnsweredOrCounted := by
  intro s f rest h hkind hb
  have hc : frameCommand f = .unknownKind := frameCommand_unknownKind (hkind.imp_right fun hbig => ⟨hbig, hb⟩)
  refine ⟨fun htag => ?_, fun htag => ?_⟩
  · exact handleHead_unnamed h hc rfl (namesStream_unknown hkind hb) (if_neg htag)
  · have hcounted : handleUnknownKind f (s.beginHandling f) = (s.beginHandling f).malformed f := by
      rw [State.malformed_untagged htag]
      exact if_pos htag
    show handleHead .unknownKind handleUnknownKind s = _
    rw [handleHead_of_canTake h hc, hcounted, State.malformed_endHandling h htag]
    rfl

end Sys2Proof.Machine
end

section
/-! SUPPORT. COUNTERS (R151, R152). -/

namespace Sys2Proof.Machine

/-! ## The body -/

/-- The body of a COUNTERS is the target byte and the clear flag. -/
theorem parseCounters_eq (f : Frame) :
    parseCounters f = if f.length = 4 then (flagOf (byteAt f 3)).map fun c => (byteAt f 2, c) else none := parseClose_eq f

/-- A flag byte is yes or no, or a fault of form (R160). -/
theorem flagOf_eq (b : Byte) : flagOf b = if 1 < b.toNat then none else some (decide (b = 1)) := by
  unfold flagOf
  split
  · next hno => rw [hno]; rfl
  · next hno =>
    split
    · next hyes => rw [hyes]; rfl
    · next hyes =>
      have hbig : 1 < b.toNat := by
        have h0 : b.toNat ≠ 0 := fun heq => hno (BitVec.eq_of_toNat_eq heq)
        have h1 : b.toNat ≠ 1 := fun heq => hyes (BitVec.eq_of_toNat_eq heq)
        omega
      rw [if_pos hbig]

theorem formed_parseCounters_none {f : Frame} (h : tagOf f = 0 ∨ f.length ≠ 4 ∨ 1 < (byteAt f 3).toNat) :
    formed parseCounters f = none := by
  refine formed_none (h.imp_right fun hbad => ?_)
  rw [parseCounters_eq, flagOf_eq]
  rcases hbad with hl | hclear
  · rw [if_neg hl]
  · rw [if_pos hclear]
    exact ite_self none

theorem formed_parseCounters {f : Frame} (htag : tagOf f ≠ 0) (hl : f.length = 4) (hclear : (byteAt f 3).toNat ≤ 1) :
    formed parseCounters f = some (byteAt f 2, decide (byteAt f 3 = 1)) := by
  rw [formed_of_tag _ htag, parseCounters_eq, if_pos hl, flagOf_eq, if_neg hclear.not_gt]
  rfl

/-! ## The target -/

theorem targetOf_global {b : Byte} (h : b = 0xFF) : targetOf b = some .global := if_pos h

theorem targetOf_stream {b : Byte} {i : StreamId} (h : b.toNat = i.val) : targetOf b = some (.stream i) := by
  have hne : b ≠ 0xFF := fun heq => by
    have h255 : i.val = 255 := by rw [← h, heq]; rfl
    omega
  rw [targetOf, if_neg hne, streamOf_eq_some h]
  rfl

theorem targetOf_bad {b : Byte} (hbig : 64 ≤ b.toNat) (hne : b ≠ 0xFF) : targetOf b = none := by
  rw [targetOf, if_neg hne, streamOf_eq_none hbig]
  rfl

/-! ## The handling -/

theorem handleCounters_badForm {f : Frame} (h : formed parseCounters f = none) (s : State) :
    handleCounters f s = s.refuse f .badForm := by
  rw [handleCounters, h]

section Formed

variable {f : Frame} {b : Byte} {clear : Bool} (h : formed parseCounters f = some (b, clear))

include h

theorem handleCounters_badValue (hb : targetOf b = none) (s : State) : handleCounters f s = s.refuse f .badValue := by
  simp only [handleCounters, h, hb]

theorem handleCounters_target {target : CountersTarget} (hb : targetOf b = some target) (s : State) :
    handleCounters f s = s.countersOf f clear target := by
  simp only [handleCounters, h, hb]

end Formed

/-- The counters of a stream are answered and, if asked, set to 0; nothing else changes (R151). -/
theorem State.countersOf_stream_endHandling {s : State} {f : Frame} {rest : List Frame} (h : s.canTake f rest) (clear : Bool)
    (i : StreamId) :
    ((s.beginHandling f).countersOf f clear (.stream i)).endHandling = State.queued
      { s.without rest with streams := if clear then s.streams.put i { s.stream i with counters := {} } else s.streams }
      (replyFor f .done (.streamCounters (s.stream i).state (s.stream i).generation (s.stream i).counters)) := by
  rw [← State.without_of_beginHandling h]
  cases clear <;> rfl

/-- The global counters are answered and, if asked, set to 0; nothing else changes (R151, R152). -/
theorem State.countersOf_global_endHandling {s : State} {f : Frame} {rest : List Frame} (h : s.canTake f rest)
    (clear : Bool) :
    ((s.beginHandling f).countersOf f clear .global).endHandling = State.queued
      (if clear then
        { s with link := { s.link with rxBuf := rest, counters := {} }, req := { s.req with globals := {} } }
       else s.without rest)
      (replyFor f .done (.globalCounters s.req.globals s.link.counters)) := by
  have hcleared : { s with link := { s.link with rxBuf := rest, counters := {} }, req := { s.req with globals := {} } } =
      (s.without rest).clearGlobalCounters := rfl
  rw [hcleared, ← State.without_of_beginHandling h]
  cases clear <;> rfl

/-- Settles O14: the form, the target, and the two snapshots with or without their clear; then the order of the counters. -/
theorem countersReadAndCleared : Obligations.CountersReadAndCleared := by
  refine ⟨fun s f rest h hk => ?_, fun _ => rfl, fun _ _ => rfl⟩
  have hc := frameCommand_counters hk
  refine ⟨fun hbad => handleHead_badForm h hc hk (handleCounters_badForm (formed_parseCounters_none hbad) _),
    fun htag hl hclear => ?_⟩
  have hformed := formed_parseCounters htag hl hclear
  have hreply : ∀ result, replyFor f .done result = ⟨tagOf f, 0x07, .done, byteAt f 2, result⟩ :=
    replyFor_named hk rfl (by omega) nofun
  have hexec : exec .counters s = .next (handleCounters f (s.beginHandling f)).endHandling :=
    handleHead_of_canTake h hc handleCounters
  refine ⟨fun hbig hne => ?_, fun i hi => ?_, fun hglobal => ?_⟩
  · exact handleHead_named h hc hk rfl (by omega) nofun (handleCounters_badValue hformed (targetOf_bad hbig hne) _)
  · rw [hexec, handleCounters_target hformed (targetOf_stream hi), State.countersOf_stream_endHandling h, hreply]
    simp only [decide_eq_true_eq]
  · rw [hexec, handleCounters_target hformed (targetOf_global hglobal), State.countersOf_global_endHandling h, hreply, hglobal]
    simp only [decide_eq_true_eq]

end Sys2Proof.Machine
end

section
/-! SUPPORT. RESET (R153). -/

namespace Sys2Proof.Machine

/-- Two states with the same blocks, pins and queue of commands are the same. -/
theorem State.eq_of_blocks {s t : State} (streams : s.streams = t.streams) (ring : s.ring = t.ring) (plans : s.plans = t.plans)
    (bus : s.bus = t.bus) (coll : s.coll = t.coll) (link : s.link = t.link) (req : s.req = t.req)
    (clockRunning : s.clockRunning = t.clockRunning) (rstLow : s.rstLow = t.rstLow) (pending : s.pending = t.pending) :
    s = t := by
  cases s
  cases t
  simp only [State.mk.injEq]
  exact ⟨streams, ring, plans, bus, coll, link, req, clockRunning, rstLow, pending⟩

/-! ## The soft reset of the streams, and what lies outside the part -/

/-- Every stream CLOSED with its counters 0 and its generation kept (R2). -/
theorem State.softReset_streams (s : State) : s.softReset.streams =
    PerStream.tabulate fun i => { generation := (s.stream i).generation, counters := {}, opening := none } := rfl

@[simp] theorem State.softReset_clockRunning (s : State) : s.softReset.clockRunning = s.clockRunning := by
  simp only [State.softReset]
@[simp] theorem State.softReset_rstLow (s : State) : s.softReset.rstLow = s.rstLow := by
  simp only [State.softReset]
@[simp] theorem State.softReset_pending (s : State) : s.softReset.pending = s.pending := by
  simp only [State.softReset]

/-! ## The handling -/

theorem handleReset_badForm {f : Frame} (h : tagOf f = 0 ∨ f.length ≠ 2) (s : State) :
    handleReset f s = s.refuse f .badForm := by
  rw [handleReset, formed_parseBare_none h]

theorem handleReset_formed {f : Frame} (htag : tagOf f ≠ 0) (hl : f.length = 2) (s : State) :
    handleReset f s = (s.withReq s.req.emptyReplies.cancelAll).softReset.replyTo f .done .none := by
  rw [handleReset, formed_parseBare htag hl]

/-- Settles O15: a RESET of good form cancels, resets every block and answers; the frames behind it stay. -/
theorem resetCancelsAndClears : Obligations.ResetCancelsAndClears := by
  intro s f rest h hk
  have hc := frameCommand_reset hk
  refine ⟨fun hbad => handleHead_badForm h hc hk (handleReset_badForm hbad _), fun htag hl => ?_⟩
  have hbuffer := h.rxBuf_tail
  show handleHead .reset handleReset s = _
  rw [handleHead_of_canTake h hc, handleReset_formed htag hl, State.replyTo, replyFor_unnamed hk rfl]
  subst hbuffer
  exact congrArg Host.Outcome.next
    (State.eq_of_blocks (State.softReset_streams _) rfl rfl rfl rfl rfl rfl (by simp) (by simp) (by simp))

end Sys2Proof.Machine
end

section
/-! SUPPORT. The bodies of OPEN, TUNE and BUNDLE, field by field: what each reader of a field reads is what the field is written
as (R160). -/

namespace Sys2Proof.Machine

/-! ## Numbers and codes -/

/-- A 32-bit field is the four bytes it is sent as, joined. -/
theorem bytes32_eq_iff (x : Word) (a b c d : Byte) : bytes32 x = [a, b, c, d] ↔ be32 a b c d = x := by
  constructor
  · intro hbytes
    simp only [bytes32, List.cons.injEq, and_true] at hbytes
    obtain ⟨rfl, rfl, rfl, rfl⟩ := hbytes
    have hlt := x.isLt
    refine BitVec.eq_of_toNat_eq ((toNat_joined ..).trans ?_)
    simp only [toNat_joined, BitVec.extractLsb'_toNat, Nat.shiftRight_eq_div_pow]
    omega
  · rintro rfl
    exact (congrArg bytes32 (joinedBytes_assoc a b c d)).trans (bytes32_append a b c d)

@[simp] theorem bytes16_be16 (h l : Byte) : bytes16 (be16 h l) = [h, l] := bytes16_append h l

@[simp] theorem bytes32_be32 (a b c d : Byte) : bytes32 (be32 a b c d) = [a, b, c, d] := (bytes32_eq_iff ..).2 rfl

@[simp] theorem be16_bytes16 (x : Half) : be16 (x.extractLsb' 8 8) (x.extractLsb' 0 8) = x := (bytes16_eq_iff x _ _).1 rfl

@[simp] theorem be32_bytes32 (x : Word) :
    be32 (x.extractLsb' 24 8) (x.extractLsb' 16 8) (x.extractLsb' 8 8) (x.extractLsb' 0 8) = x :=
  (bytes32_eq_iff x _ _ _ _).1 rfl

/-- A number is the one its bits give exactly when it has no higher bits and these bits. -/
theorem eq_bitsValue_iff (n : Nat) (bits : List Bool) :
    n = bitsValue bits ↔ n < 2 ^ bits.length ∧ (List.range bits.length).map n.testBit = bits := by
  induction bits generalizing n with
  | nil => simp [bitsValue]
  | cons x xs ih =>
    have hsplit : n = x.toNat + 2 * bitsValue xs ↔ n / 2 = bitsValue xs ∧ n.testBit 0 = x := by
      rw [Nat.testBit_zero]
      cases x <;> simp <;> omega
    rw [bitsValue, hsplit, ih, List.length_cons, List.range_succ_eq_map, List.map_cons, List.map_map, List.cons.injEq,
      Nat.pow_succ, Nat.div_lt_iff_lt_mul Nat.two_pos]
    simp only [Function.comp_def, Nat.testBit_succ]
    tauto

theorem bitsValue_lt (bits : List Bool) : bitsValue bits < 2 ^ bits.length := ((eq_bitsValue_iff _ bits).1 rfl).1

theorem bitsValue_pos_iff (bits : List Bool) : 0 < bitsValue bits ↔ true ∈ bits := by
  induction bits with
  | nil => simp [bitsValue]
  | cons x xs ih => cases x <;> simp [bitsValue, ih]

/-- A byte is the sum of the weights of the bits set in it (R160). -/
theorem eq_byteOf_bitsValue_iff (b : Byte) {bits : List Bool} (h : bits.length ≤ 8) :
    b = byteOf (bitsValue bits) ↔ b.toNat < 2 ^ bits.length ∧ (List.range bits.length).map b.getLsbD = bits := by
  have hbyte : bitsValue bits < 256 := (bitsValue_lt bits).trans_le (Nat.pow_le_pow_right Nat.two_pos h)
  rw [← BitVec.toNat_inj, toNat_byteOf hbyte, eq_bitsValue_iff]
  rfl

@[simp] theorem byteOf_toNat (b : Byte) : byteOf b.toNat = b := by simp [byteOf]

@[simp] theorem num16_toNat (x : Half) : num16 x.toNat = bytes16 x := by simp [num16]

theorem policyOf_eq_some_iff (b : Byte) (p : Policy) : policyOf b = some p ↔ b = p.code := by
  unfold policyOf
  split
  · next hrepeat => subst hrepeat; cases p <;> decide
  · next hrepeat =>
    split
    · next hsafe => subst hsafe; cases p <;> decide
    · next hsafe =>
      cases p with
      | repeatLast => exact iff_of_false nofun hrepeat
      | safe => exact iff_of_false nofun hsafe

theorem NoticeMask.code_eq_bits (m : NoticeMask) : m.code = byteOf (bitsValue [m.state, m.discard, m.silent]) := by
  obtain ⟨state, discard, silent⟩ := m
  cases state <;> cases discard <;> cases silent <;> rfl

theorem maskOf_eq_some_iff (b : Byte) (m : NoticeMask) : maskOf b = some m ↔ b = m.code := by
  obtain ⟨state, discard, silent⟩ := m
  rw [NoticeMask.code_eq_bits, eq_byteOf_bitsValue_iff b (by simp), maskOf]
  simp [List.range_succ]

theorem streamOf_eq_some_iff (b : Byte) (i : StreamId) : streamOf b = some i ↔ b = byteOf i.val := by
  have hi : i.val < 256 := i.isLt.trans (by decide)
  rw [← BitVec.toNat_inj, toNat_byteOf hi]
  refine ⟨fun h => ?_, streamOf_eq_some⟩
  unfold streamOf at h
  split at h
  · cases h; rfl
  · cases h

/-! ## Fields at the head of a body -/

theorem bytes16_append_eq_iff (h l : Byte) (bs : List Byte) (x : Half) (rest : List Byte) :
    bytes16 x ++ rest = h :: l :: bs ↔ be16 h l = x ∧ rest = bs := by
  rw [be16, ← bytes16_eq_iff]
  simp only [bytes16, List.cons_append, List.nil_append, List.cons.injEq, and_true, and_assoc]

theorem bytes32_append_eq_iff (a b c d : Byte) (bs : List Byte) (x : Word) (rest : List Byte) :
    bytes32 x ++ rest = a :: b :: c :: d :: bs ↔ be32 a b c d = x ∧ rest = bs := by
  rw [← bytes32_eq_iff]
  simp only [bytes32, List.cons_append, List.nil_append, List.cons.injEq, and_true, and_assoc]

theorem presenceBit_eq {α : Type} (weight : Nat) (x : Option α) : presenceBit weight x = weight * x.isSome.toNat := by
  cases x <;> simp [presenceBit]

section Optional
variable {present : Bool} {bs rest : List Byte}

/-- An optional byte is read exactly when its presence bit is set and it comes first. -/
theorem optByte_eq_some_iff {x : Option Byte} :
    optByte present bs = some (x, rest) ↔ x.isSome = present ∧ optBytes (fun b => [b]) x ++ rest = bs := by
  cases present with
  | false => cases x <;> simp [optByte, optBytes, eq_comm]
  | true => cases bs <;> cases x <;> simp [optByte, optBytes, eq_comm]

theorem optHalf_eq_some_iff {x : Option Half} :
    optHalf present bs = some (x, rest) ↔ x.isSome = present ∧ optBytes bytes16 x ++ rest = bs := by
  cases present with
  | false => cases x <;> simp [optHalf, optBytes, eq_comm]
  | true =>
    match bs with
    | [] | [_] => cases x <;> simp [optHalf, optBytes, bytes16]
    | h :: l :: bs => cases x <;> simp [optHalf, optBytes, bytes16_append_eq_iff, eq_comm (a := bs)]

theorem optWord_eq_some_iff {x : Option Word} :
    optWord present bs = some (x, rest) ↔ x.isSome = present ∧ optBytes bytes32 x ++ rest = bs := by
  cases present with
  | false => cases x <;> simp [optWord, optBytes, eq_comm]
  | true =>
    match bs with
    | [] | [_] | [_, _] | [_, _, _] => cases x <;> simp [optWord, optBytes, bytes32]
    | a :: b :: c :: d :: bs => cases x <;> simp [optWord, optBytes, bytes32_append_eq_iff, eq_comm (a := bs)]

/-- A coded field is read exactly as the code its value has. -/
theorem optCode_eq_some_iff {α : Type} {decode : Byte → Option α} {code : α → Byte}
    (h : ∀ b x, decode b = some x ↔ b = code x) (b : Option Byte) (x : Option α) :
    optCode decode b = some x ↔ b = x.map code := by
  cases b <;> cases x <;> simp [optCode, h]

/-- A coded field is sent as its code (R160). -/
@[simp] theorem optBytes_map_code {α : Type} (code : α → Byte) (x : Option α) :
    optBytes (fun b => [b]) (x.map code) = optBytes (fun v => [code v]) x := by
  cases x <;> rfl

end Optional

/-- The values of a BUNDLE are read exactly from four bytes each, with none left over (R39). -/
theorem wordsOf_eq_some_iff (bs : List Byte) (values : List Word) :
    wordsOf bs = some values ↔ values.flatMap bytes32 = bs := by
  induction bs using wordsOf.induct generalizing values with
  | case1 => cases values <;> simp [wordsOf, bytes32]
  | case2 a b c d rest ih =>
    cases values with
    | nil => simp [wordsOf]
    | cons x xs => simp [wordsOf, bytes32_append_eq_iff, ih, and_comm]
  | case3 bs hne hform =>
    cases values with
    | nil => simpa [wordsOf] using hne
    | cons x xs => simpa [wordsOf] using fun h => hform _ _ _ _ _ h.symm

/-! ## OPEN -/

/-- The presence bits of an OPEN, bit 0 first (R160). -/
def OpenRequest.presence (q : OpenRequest) : List Bool := [q.start.isSome, q.batch.isSome, q.mask.isSome]

/-- The optional fields of an OPEN as they are sent (R160). -/
def OpenRequest.options (q : OpenRequest) : List Byte :=
  optBytes bytes16 q.start ++ (optBytes (fun b => [b]) q.batch ++ optBytes (fun m => [m.code]) q.mask)

theorem OpenRequest.bytes_eq (q : OpenRequest) : q.bytes =
    q.stream :: byteOf q.station :: byteOf q.channel :: (num16 q.ringSize ++ (num16 q.primeDepth ++
      (byteOf q.starveLimit :: q.policy.code :: (bytes32 q.safeValue ++ (byteOf (bitsValue q.presence) :: q.options))))) := by
  have hpresence : presenceBit 1 q.start + presenceBit 2 q.batch + presenceBit 4 q.mask = bitsValue q.presence := by
    simp only [presenceBit_eq, OpenRequest.presence, bitsValue]
    omega
  simp only [OpenRequest.bytes, OpenRequest.options, hpresence, List.append_assoc, List.cons_append, List.nil_append]

/-- Each bit of the presence byte of an OPEN says whether its field comes (R160). -/
theorem OpenRequest.presence_iff (q : OpenRequest) (b : Byte) : b = byteOf (bitsValue q.presence) ↔
    b.toNat < 8 ∧ q.start.isSome = b.getLsbD 0 ∧ q.batch.isSome = b.getLsbD 1 ∧ q.mask.isSome = b.getLsbD 2 := by
  rw [eq_byteOf_bitsValue_iff b (by simp [OpenRequest.presence])]
  simp [OpenRequest.presence, List.range_succ, eq_comm]

/-- The options of an OPEN are read exactly: the presence byte says which come, and nothing else comes. -/
theorem openOptions_eq_some_iff (presence : Byte) (bs : List Byte) (q : OpenRequest) :
    openOptions presence bs = some (q.start, q.batch, q.mask) ↔
      presence = byteOf (bitsValue q.presence) ∧ bs = q.options := by
  simp only [openOptions, Option.bind_eq_bind, Option.bind_eq_some_iff, Prod.exists, optHalf_eq_some_iff, optByte_eq_some_iff,
    optCode_eq_some_iff maskOf_eq_some_iff, OpenRequest.presence_iff]
  constructor
  · rintro ⟨start, _, ⟨hstart, rfl⟩, batch, _, ⟨hbatch, rfl⟩, _, _, ⟨hmask, rfl⟩, mask, rfl, h⟩
    simp only [Option.ite_none_right_eq_some, Option.some.injEq, Prod.mk.injEq] at h
    obtain ⟨⟨rfl, hlt⟩, rfl, rfl, rfl⟩ := h
    exact ⟨⟨hlt, hstart, hbatch, by simpa using hmask⟩, by simp [OpenRequest.options]⟩
  · rintro ⟨⟨hlt, hstart, hbatch, hmask⟩, rfl⟩
    exact ⟨_, _, ⟨hstart, rfl⟩, _, _, ⟨hbatch, rfl⟩, _, [],
      ⟨by simpa using hmask, (List.append_nil _).trans (optBytes_map_code ..)⟩, _, rfl, if_pos ⟨rfl, hlt⟩⟩

/-- The body of an OPEN is read exactly (R160). -/
theorem parseOpen_eq_some_iff (f : Frame) (q : OpenRequest) :
    parseOpen f = some q ↔ q.fits ∧ ∃ kind tag, f = kind :: tag :: q.bytes := by
  constructor
  · intro h
    unfold parseOpen at h
    split at h
    · next kind tag stream station channel r1 r0 p1 p0 starve pol v3 v2 v1 v0 presence rest =>
      split at h
      · next policy start batch mask hpolicy hoptions =>
        have hq := Option.some.inj h
        have hread : openOptions presence rest = some (q.start, q.batch, q.mask) := hoptions.trans (by rw [← hq])
        obtain ⟨hpresence, hrest⟩ := (openOptions_eq_some_iff presence rest q).1 hread
        rw [OpenRequest.bytes_eq, ← hpresence, ← hrest, (policyOf_eq_some_iff pol policy).1 hpolicy]
        subst hq
        exact ⟨⟨station.isLt, channel.isLt, (be16 r1 r0).isLt, (be16 p1 p0).isLt, starve.isLt⟩, kind, tag, by simp⟩
      · cases h
    · cases h
  · rintro ⟨⟨hstation, hchannel, hring, hprime, hstarve⟩, kind, tag, rfl⟩
    have hpolicy := (policyOf_eq_some_iff q.policy.code _).2 rfl
    have hoptions := (openOptions_eq_some_iff _ _ q).2 ⟨rfl, rfl⟩
    rw [OpenRequest.bytes_eq]
    simp [parseOpen, num16, bytes16, bytes32, hpolicy, hoptions, toNat_byteOf hstation, toNat_byteOf hchannel,
      toNat_byteOf hstarve, Nat.mod_eq_of_lt hring, Nat.mod_eq_of_lt hprime]

/-! ## TUNE -/

/-- The presence bits of a TUNE, bit 0 first (R160). -/
def TuneRequest.presence (q : TuneRequest) : List Bool :=
  [q.primeDepth.isSome, q.starveLimit.isSome, q.policy.isSome, q.safeValue.isSome, q.batch.isSome, q.mask.isSome]

/-- The optional fields of a TUNE as they are sent (R160). -/
def TuneRequest.options (q : TuneRequest) : List Byte :=
  optBytes bytes16 q.primeDepth ++ (optBytes (fun b => [b]) q.starveLimit ++ (optBytes (fun p => [p.code]) q.policy ++
    (optBytes bytes32 q.safeValue ++ (optBytes (fun b => [b]) q.batch ++ optBytes (fun m => [m.code]) q.mask))))

theorem TuneRequest.bytes_eq (q : TuneRequest) :
    q.bytes = q.stream :: byteOf (bitsValue q.presence) :: q.options := by
  have hpresence : presenceBit 1 q.primeDepth + presenceBit 2 q.starveLimit + presenceBit 4 q.policy +
      presenceBit 8 q.safeValue + presenceBit 16 q.batch + presenceBit 32 q.mask = bitsValue q.presence := by
    simp only [presenceBit_eq, TuneRequest.presence, bitsValue]
    omega
  simp only [TuneRequest.bytes, TuneRequest.options, hpresence, List.append_assoc, List.cons_append, List.nil_append]

/-- Each bit of the presence byte of a TUNE says whether its field comes (R160). -/
theorem TuneRequest.presence_iff (q : TuneRequest) (b : Byte) : b = byteOf (bitsValue q.presence) ↔
    b.toNat < 64 ∧ q.primeDepth.isSome = b.getLsbD 0 ∧ q.starveLimit.isSome = b.getLsbD 1 ∧ q.policy.isSome = b.getLsbD 2 ∧
      q.safeValue.isSome = b.getLsbD 3 ∧ q.batch.isSome = b.getLsbD 4 ∧ q.mask.isSome = b.getLsbD 5 := by
  rw [eq_byteOf_bitsValue_iff b (by simp [TuneRequest.presence])]
  simp [TuneRequest.presence, List.range_succ, eq_comm]

/-- A TUNE carries a field exactly when its presence byte is not 0 (R14). -/
theorem TuneRequest.carries_iff {q : TuneRequest} {b : Byte} (h : b = byteOf (bitsValue q.presence)) :
    q.carries ↔ 0 < b.toNat := by
  have hbyte : bitsValue q.presence < 256 := (bitsValue_lt q.presence).trans (by simp [TuneRequest.presence])
  rw [h, toNat_byteOf hbyte, bitsValue_pos_iff]
  simp only [TuneRequest.carries, TuneRequest.presence, List.mem_cons, List.not_mem_nil, or_false, eq_comm (a := true)]

/-- The optional fields of a TUNE are read exactly, and one comes at least (R14, R160). -/
theorem tuneFields_eq_some_iff (stream presence : Byte) (bs : List Byte) (q : TuneRequest) :
    tuneFields stream presence bs = some q ↔
      q.carries ∧ stream = q.stream ∧ presence = byteOf (bitsValue q.presence) ∧ bs = q.options := by
  simp only [tuneFields, Option.bind_eq_bind, Option.bind_eq_some_iff, Prod.exists, optHalf_eq_some_iff, optByte_eq_some_iff,
    optWord_eq_some_iff, optCode_eq_some_iff maskOf_eq_some_iff, optCode_eq_some_iff policyOf_eq_some_iff]
  constructor
  · rintro ⟨prime, _, ⟨hprime, rfl⟩, limit, _, ⟨hlimit, rfl⟩, _, _, ⟨hpolicy, rfl⟩, policy, rfl, safe, _, ⟨hsafe, rfl⟩,
      batch, _, ⟨hbatch, rfl⟩, _, _, ⟨hmask, rfl⟩, mask, rfl, h⟩
    simp only [Option.ite_none_right_eq_some, Option.some.injEq] at h
    obtain ⟨⟨rfl, hpos, hlt⟩, rfl⟩ := h
    rw [Option.isSome_map] at hpolicy hmask
    have hpresence := (TuneRequest.presence_iff ⟨stream, prime, limit, policy, safe, batch, mask⟩ presence).2
      ⟨hlt, hprime, hlimit, hpolicy, hsafe, hbatch, hmask⟩
    exact ⟨(TuneRequest.carries_iff hpresence).2 hpos, rfl, hpresence, by simp [TuneRequest.options]⟩
  · rintro ⟨hcarries, rfl, hpresence, rfl⟩
    have hpos := (TuneRequest.carries_iff hpresence).1 hcarries
    obtain ⟨hlt, hprime, hlimit, hpolicy, hsafe, hbatch, hmask⟩ := (q.presence_iff presence).1 hpresence
    rw [← Option.isSome_map (f := Policy.code)] at hpolicy
    rw [← Option.isSome_map (f := NoticeMask.code)] at hmask
    refine ⟨_, _, ⟨hprime, rfl⟩, _, _, ⟨hlimit, rfl⟩, _, _, ⟨hpolicy, congrArg (· ++ _) (optBytes_map_code ..)⟩, _, rfl,
      _, _, ⟨hsafe, rfl⟩, _, _, ⟨hbatch, rfl⟩, _, [], ⟨hmask, (List.append_nil _).trans (optBytes_map_code ..)⟩, _, rfl,
      if_pos ⟨rfl, hpos, hlt⟩⟩

/-- The body of a TUNE is read exactly (R160). -/
theorem parseTune_eq_some_iff (f : Frame) (q : TuneRequest) :
    parseTune f = some q ↔ q.carries ∧ ∃ kind tag, f = kind :: tag :: q.bytes := by
  rw [TuneRequest.bytes_eq]
  constructor
  · intro h
    unfold parseTune at h
    split at h
    · next kind tag stream presence rest =>
      obtain ⟨hcarries, rfl, rfl, rfl⟩ := (tuneFields_eq_some_iff ..).1 h
      exact ⟨hcarries, kind, tag, rfl⟩
    · cases h
  · rintro ⟨hcarries, kind, tag, rfl⟩
    exact (tuneFields_eq_some_iff ..).2 ⟨hcarries, rfl, rfl, rfl⟩

/-! ## BUNDLE -/

/-- The body of a BUNDLE is read exactly (R38, R39, R160). -/
theorem parseBundle_eq_some_iff (f : Frame) (q : BundleRequest) :
    parseBundle f = some q ↔ (1 ≤ q.values.length ∧ q.values.length ≤ 32) ∧ ∃ kind tag, f = kind :: tag :: q.bytes := by
  constructor
  · intro h
    unfold parseBundle at h
    split at h
    · next kind tag stream high low count rest =>
      split at h
      · next i values hstream hvalues =>
        rw [Option.ite_none_right_eq_some, Option.some.injEq] at h
        obtain ⟨⟨hcount, hmin, hmax⟩, rfl⟩ := h
        rw [streamOf_eq_some_iff] at hstream
        rw [wordsOf_eq_some_iff] at hvalues
        exact ⟨⟨hmin, hmax⟩, kind, tag, by simp [BundleRequest.bytes, hstream, hcount, hvalues]⟩
      · cases h
    · cases h
  · rintro ⟨⟨hmin, hmax⟩, kind, tag, rfl⟩
    have hstream := (streamOf_eq_some_iff _ q.stream).2 rfl
    have hvalues := (wordsOf_eq_some_iff _ q.values).2 rfl
    have hcount : (byteOf q.values.length).toNat = q.values.length := toNat_byteOf (by omega)
    simp [parseBundle, BundleRequest.bytes, bytes16, hstream, hvalues, hcount, hmin, hmax]

/-- Settles O12: each body, read exactly. -/
theorem bodiesAreReadExactly : Obligations.BodiesAreReadExactly :=
  ⟨parseOpen_eq_some_iff, parseTune_eq_some_iff, parseBundle_eq_some_iff⟩

end Sys2Proof.Machine
end

section
/-! SUPPORT. One step: the front of the queue, or the end of the frame on the cadence bus (logs 2, 7, 17). -/

namespace Sys2Proof.Machine

theorem step_front {s : State} {c : Instr} {q : List Instr} (h : s.pending = c :: q) : step s = exec c (s.withPending q) := by
  rw [step, h]

theorem step_empty {s : State} (h : s.pending = []) : step s = .next s.passTime := by
  rw [step, h]

/-- Settles O1: the two ways of a step, the end of the frame in service and out of it, and when BDE is asserted. -/
theorem stepRunsFrontCommand : Obligations.StepRunsFrontCommand := by
  refine ⟨fun _ _ _ hfront => step_front hfront, fun s hempty hs => ?_, fun s hempty hs => ?_,
    fun s => ⟨s.bde_eq_false_iff.2, fun frame hframe hstate hrst => ?_⟩⟩
  · rw [step_empty hempty, State.passTime_of_inService hs]
    rfl
  · rw [step_empty hempty, State.passTime_of_not_inService hs]
  · rw [← Bool.not_eq_false, State.bde_eq_false_iff]
    simp [hframe, hstate, hrst]

end Sys2Proof.Machine
end

section
/-! SUPPORT. The queue of waiting commands stands under every operation that commands share (log 2). -/

namespace Sys2Proof.Machine

/-- A choice between two changes that leave the queue leaves it. -/
theorem State.pending_ite {s t u : State} {p : Prop} [Decidable p] (ht : t.pending = s.pending) (hu : u.pending = s.pending) :
    (if p then t else u).pending = s.pending := by
  split
  · exact ht
  · exact hu

@[simp] theorem State.replyTo_pending (s : State) (f : Frame) (status : Status) (result : ReplyResult) :
    (s.replyTo f status result).pending = s.pending := rfl

/-! ## Notices, phases and closes -/

@[simp] theorem State.raiseNotice_pending (s : State) (i : StreamId) (k : NoticeKind) (n : Nat) :
    (s.raiseNotice i k n).pending = s.pending := by
  unfold State.raiseNotice
  split
  · rfl
  · exact State.pending_ite rfl rfl

@[simp] theorem State.startPlaying_pending (s : State) (i : StreamId) (o : Opening) :
    (s.startPlaying i o).pending = s.pending := State.raiseNotice_pending ..

@[simp] theorem State.comparePlay_pending (s : State) (i : StreamId) : (s.comparePlay i).pending = s.pending := by
  unfold State.comparePlay
  split
  · rfl
  · exact State.pending_ite (s.startPlaying_pending ..) rfl

@[simp] theorem State.compareStarve_pending (s : State) (i : StreamId) : (s.compareStarve i).pending = s.pending := by
  unfold State.compareStarve
  split
  · rfl
  · exact State.pending_ite (State.raiseNotice_pending ..) rfl

@[simp] theorem State.closeStream_pending (s : State) (i : StreamId) (drainEnded : Bool) :
    (s.closeStream i drainEnded).pending = s.pending := (s.sameService_closeStream i drainEnded).pending

@[simp] theorem State.endDrains_pending (s : State) (p : Opening → Bool) : (s.endDrains p).pending = s.pending :=
  State.endDrains_induct (P := fun t => t.pending = s.pending)
    (fun _ _ _ ht _ _ _ => (State.closeStream_pending ..).trans ht) rfl

/-! ## Collection -/

@[simp] theorem State.handRecord_pending (s : State) (i : StreamId) (batch : Nat) (r : ReturnRecord) :
    (s.handRecord i batch r).pending = s.pending := by
  obtain ⟨c, d, hhand, -⟩ := s.handRecord_frame i batch r
  rw [hhand]
  rfl

@[simp] theorem State.retuneBatch_pending (s : State) (i : StreamId) (old new : Nat) :
    (s.retuneBatch i old new).pending = s.pending := by
  obtain ⟨n, d, hretune⟩ := s.retuneBatch_frame i old new
  rw [hretune]
  rfl

/-! ## Swaps and the stop of the bus -/

@[simp] theorem State.applySwap_pending (s : State) : s.applySwap.pending = s.pending := by simp [State.applySwap]

@[simp] theorem State.settleSwap_pending (s : State) (cycle : Option Half) : (s.settleSwap cycle).pending = s.pending := by
  cases hp : s.plans.swapPending with
  | false => rw [State.settleSwap_none hp]
  | true => simp [State.settleSwap_eq hp]

@[simp] theorem State.stopBus_pending (s : State) : s.stopBus.pending = s.pending := by simp [State.stopBus]

@[simp] theorem State.stopAfterCycle_pending (s : State) : s.stopAfterCycle.pending = s.pending := by
  simp [State.stopAfterCycle]

@[simp] theorem State.afterOutcome_pending (s : State) : s.afterOutcome.pending = s.pending := by
  unfold State.afterOutcome State.endCycle
  exact State.pending_ite (State.pending_ite (State.stopAfterCycle_pending _) rfl) rfl

end Sys2Proof.Machine
end

section
/-! SUPPORT. Every handling of a frame leaves the queue of waiting commands alone (log 2). -/

namespace Sys2Proof.Machine

/-! ## Requests about streams -/

theorem State.onOpen_pending {s : State} {f : Frame} {b : Byte} {k : StreamId → Opening → State}
    (hk : ∀ i o, (k i o).pending = s.pending) : (s.onOpen f b k).pending = s.pending := by
  unfold State.onOpen
  split
  · rfl
  · split
    · rfl
    · exact hk _ _

section Handlings

variable (f : Frame) (s : State)

theorem handleOpen_pending : (handleOpen f s).pending = s.pending := by
  unfold handleOpen
  split
  · rfl
  · split
    · rfl
    · split
      · rfl
      · rfl

theorem State.closeNow_pending (i : StreamId) : (s.closeNow f i).pending = s.pending := s.closeStream_pending i false

theorem handleCloseAtOnce_pending : (handleCloseAtOnce f s).pending = s.pending := by
  unfold handleCloseAtOnce
  split
  · rfl
  · exact State.onOpen_pending fun i _ => s.closeNow_pending f i

theorem State.drainOrClose_pending (i : StreamId) (o : Opening) : (s.drainOrClose f i o).pending = s.pending := by
  have hclosed := s.closeNow_pending f i
  unfold State.drainOrClose
  split
  · exact hclosed
  · exact hclosed
  · exact hclosed
  · rfl
  · exact State.pending_ite hclosed (State.pending_ite rfl rfl)

theorem handleCloseWithDrain_pending : (handleCloseWithDrain f s).pending = s.pending := by
  unfold handleCloseWithDrain
  split
  · rfl
  · exact State.onOpen_pending fun i o => s.drainOrClose_pending f i o

theorem handleResumeWithoutSequence_pending : (handleResumeWithoutSequence f s).pending = s.pending := by
  unfold handleResumeWithoutSequence
  split
  · rfl
  · exact State.onOpen_pending fun _ _ => State.pending_ite rfl rfl

theorem handleResumeWithStartSequence_pending : (handleResumeWithStartSequence f s).pending = s.pending := by
  unfold handleResumeWithStartSequence
  split
  · rfl
  · rfl
  · exact State.onOpen_pending fun _ _ => State.pending_ite rfl (State.pending_ite rfl rfl)

theorem State.applyTune_pending (q : TuneRequest) (i : StreamId) (o : Opening) :
    (s.applyTune q i o).pending = s.pending := by
  simp [State.applyTune, State.compareTuned]

theorem handleTune_pending : (handleTune f s).pending = s.pending := by
  unfold handleTune
  split
  · rfl
  · exact State.onOpen_pending fun i o => State.pending_ite rfl (State.pending_ite rfl (s.applyTune_pending _ i o))

theorem handleQuery_pending : (handleQuery f s).pending = s.pending := by
  unfold handleQuery
  split
  · rfl
  · split
    · rfl
    · rfl

theorem handleFlush_pending : (handleFlush f s).pending = s.pending := by
  unfold handleFlush
  split
  · rfl
  · exact State.onOpen_pending fun _ _ => State.pending_ite rfl (State.pending_ite rfl (State.pending_ite rfl rfl))

/-! ## Requests about the part, plans and the bus -/

theorem handleHello_pending : (handleHello f s).pending = s.pending := by
  unfold handleHello
  split
  · rfl
  · rfl

theorem State.countersOf_pending (clear : Bool) (target : CountersTarget) :
    (s.countersOf f clear target).pending = s.pending := by
  cases target with
  | stream i => exact State.pending_ite (t := s.clearStreamCounters i) rfl rfl
  | global => exact State.pending_ite (t := s.clearGlobalCounters) rfl rfl

theorem handleCounters_pending : (handleCounters f s).pending = s.pending := by
  unfold handleCounters
  split
  · rfl
  · split
    · rfl
    · exact s.countersOf_pending f _ _

theorem handleStage_pending : (handleStage f s).pending = s.pending := by
  unfold handleStage
  split
  · rfl
  · refine State.pending_ite rfl ?_
    split
    · rfl
    · rfl

theorem handleSwap_pending : (handleSwap f s).pending = s.pending := by
  have hnow : (s.swapNow f).pending = s.pending := by simp [State.swapNow]
  unfold handleSwap
  split
  · rfl
  · exact State.pending_ite rfl (State.pending_ite rfl (State.pending_ite hnow (State.pending_ite rfl rfl)))

theorem handleStart_pending : (handleStart f s).pending = s.pending := by
  unfold handleStart
  split
  · rfl
  · split
    · rfl
    · rfl
    · exact State.pending_ite rfl rfl

theorem handleHalt_pending : (handleHalt f s).pending = s.pending := by
  have hnow : (s.haltNow f).pending = s.pending := by simp [State.haltNow]
  unfold handleHalt
  split
  · rfl
  · split
    · rfl
    · rfl
    · exact State.pending_ite (State.pending_ite rfl rfl) hnow

theorem handlePeriod_pending : (handlePeriod f s).pending = s.pending := by
  unfold handlePeriod
  split
  · rfl
  · split
    · rfl
    · rfl

theorem handleReset_pending : (handleReset f s).pending = s.pending := by
  unfold handleReset
  split
  · rfl
  · rw [State.replyTo_pending, State.softReset_pending, State.withReq_pending]

theorem handleUnknownKind_pending : (handleUnknownKind f s).pending = s.pending := State.pending_ite rfl rfl

/-! ## BUNDLE (R39 to R52) -/

@[simp] theorem State.acknowledge_pending (i : StreamId) (status : Status) (n : PlaceCounts) :
    (s.acknowledge f i status n).pending = s.pending := State.pending_ite rfl rfl

@[simp] theorem State.noteDiscards_pending (i : StreamId) (n : PlaceCounts) : (s.noteDiscards i n).pending = s.pending :=
  State.pending_ite rfl (s.raiseNotice_pending ..)

@[simp] theorem State.testStart_pending (i : StreamId) : (s.testStart i).pending = s.pending := s.comparePlay_pending i

theorem State.classifyBundle_pending (q : BundleRequest) (o : Opening) : (s.classifyBundle f q o).pending = s.pending := by
  simp [State.classifyBundle, State.placeBundle]

theorem State.takeBundle_pending (q : BundleRequest) : (s.takeBundle f q).pending = s.pending := by
  have hrefused : (s.refuseBundle f q).pending = s.pending := State.acknowledge_pending ..
  unfold State.takeBundle
  split
  · exact State.acknowledge_pending ..
  · split
    · exact hrefused
    · exact hrefused
    · exact s.classifyBundle_pending f q _
    · exact s.classifyBundle_pending f q _
    · exact s.classifyBundle_pending f q _

theorem handleBundle_pending : (handleBundle f s).pending = s.pending := by
  unfold handleBundle
  split
  · exact State.pending_ite rfl rfl
  · exact s.takeBundle_pending f _

end Handlings

end Sys2Proof.Machine
end

section
/-! SUPPORT. Every event leaves the queue of waiting commands alone; and every command answers a next state (logs 1, 2). -/

namespace Sys2Proof.Machine

section Events

variable (s : State)

/-! ## Bytes of the feed link -/

theorem State.takeLength_pending (b : Byte) (crc : Half) : (s.takeLength b crc).pending = s.pending :=
  State.pending_ite rfl rfl

theorem State.offer_pending (f : Frame) : (s.offer f).pending = s.pending := State.pending_ite rfl rfl

/-! ## Sweeps, visits and outcomes -/

theorem State.sweepDone_pending (i : StreamId) (o : Opening) : (s.sweepDone i o).pending = s.pending := by
  simp [State.sweepDone]

theorem State.voidNext_pending (i : StreamId) (voided : Nat) : (s.voidNext i voided).pending = s.pending := by
  unfold State.voidNext
  split
  · rfl
  · split
    · rfl
    · exact State.pending_ite ((State.sweepDone_pending ..).trans (s.withRing_pending _)) (s.withRing_pending _)

theorem State.beginCycle_pending (time : Nat) : (s.beginCycle time).pending = s.pending := s.settleSwap_pending _

theorem State.runSlot_pending (k : Nat) (e : PlanEntry) : (s.runSlot k e).pending = s.pending :=
  (s.sameService_runSlot k e).pending

theorem State.markOutcome_pending (i : StreamId) (o : Opening) (x : ReturnOutcome) :
    (s.markOutcome i o x).pending = s.pending := State.pending_ite (State.raiseNotice_pending ..) rfl

theorem State.takeOutcome_pending (r : SlotRecord) (x : ReturnOutcome) : (s.takeOutcome r x).pending = s.pending := by
  unfold State.takeOutcome
  split
  · exact State.pending_ite rfl rfl
  · split
    · rfl
    · exact State.pending_ite ((State.handRecord_pending ..).trans (s.markOutcome_pending ..)) rfl

theorem State.endSlot_pending (r : SlotRecord) (x : ReturnOutcome) : (s.endSlot r x).pending = s.pending := by
  rw [State.endSlot, State.afterOutcome_pending, State.withBus_pending, s.takeOutcome_pending]

/-! ## Picks -/

theorem State.releaseStall_pending : s.releaseStall.pending = s.pending := by
  unfold State.releaseStall
  split
  · rfl
  · rfl

theorem State.pickReport_pending : s.pickReport.pending = s.pending := by
  unfold State.pickReport
  split
  · rfl
  · exact State.releaseStall_pending _

theorem State.pickReply_pending : s.pickReply.pending = s.pending := by
  unfold State.pickReply
  split
  · rfl
  · rfl

theorem State.pickOf_pending (choice : PickChoice) : (s.pickOf choice).pending = s.pending := by
  cases choice with
  | report => exact s.pickReport_pending
  | reply => exact s.pickReply_pending
  | linkNotice => rfl
  | streamNotice i k => rfl

end Events

/-! ## Every command -/

/-- The outcome is a next state whose queue of waiting commands is that of `s`. -/
def State.goesOn (s : State) (r : Outcome) : Prop := ∃ t, r = .next t ∧ t.pending = s.pending

theorem State.goesOn_next {s t : State} (h : t.pending = s.pending) : s.goesOn (.next t) := ⟨t, rfl, h⟩

/-- An event that is due or not due. -/
theorem State.goesOn_onlyIf {s t : State} (due : Bool) (h : t.pending = s.pending) : s.goesOn (.next (s.onlyIf due t)) :=
  State.goesOn_next (State.pending_ite h rfl)

/-- A frame is taken and handled, or nothing happens. -/
theorem State.goesOn_handleHead (c : Instr) {handle : Frame → State → State}
    (hh : ∀ f u, (handle f u).pending = u.pending) (s : State) : s.goesOn (handleHead c handle s) := by
  rcases handleHead_cases c handle s with hnone | ⟨f, -, -, -, hsome⟩
  · rw [hnone]
    exact State.goesOn_next rfl
  · rw [hsome]
    exact State.goesOn_next (hh f (s.beginHandling f))

/-- Settles O2: each command by the lemma of its handling or its event. -/
theorem everyCommandAnswersNext : Obligations.EveryCommandAnswersNext := by
  intro c s
  show s.goesOn (exec c s)
  cases c with
  | powerOnReset cause rate1 rate0 =>
    refine State.goesOn_next ?_
    split
    · rfl
    · rfl
    · exact State.pending_ite rfl rfl
  | rstRelease rate1 rate0 => exact State.goesOn_onlyIf _ rfl
  | syncByte => exact State.goesOn_onlyIf _ rfl
  | huntByte b => exact State.goesOn_onlyIf _ rfl
  | lengthByte b =>
    refine State.goesOn_next ?_
    split
    · exact State.pending_ite (s.takeLength_pending b _) rfl
    · rfl
  | bodyByte b =>
    refine State.goesOn_next ?_
    split
    · exact State.pending_ite rfl rfl
    · rfl
  | highCheckByte b =>
    refine State.goesOn_next ?_
    split
    · exact State.pending_ite rfl rfl
    · rfl
  | lowCheckByte b =>
    refine State.goesOn_next ?_
    split
    · exact State.pending_ite (State.pending_ite (State.offer_pending ..) rfl) rfl
    · rfl
  | interByteTimeout => exact State.goesOn_onlyIf _ rfl
  | hello => exact State.goesOn_handleHead _ handleHello_pending s
  | openStream => exact State.goesOn_handleHead _ handleOpen_pending s
  | closeAtOnce => exact State.goesOn_handleHead _ handleCloseAtOnce_pending s
  | closeWithDrain => exact State.goesOn_handleHead _ handleCloseWithDrain_pending s
  | resumeWithoutSequence => exact State.goesOn_handleHead _ handleResumeWithoutSequence_pending s
  | resumeWithStartSequence => exact State.goesOn_handleHead _ handleResumeWithStartSequence_pending s
  | tune => exact State.goesOn_handleHead _ handleTune_pending s
  | query => exact State.goesOn_handleHead _ handleQuery_pending s
  | counters => exact State.goesOn_handleHead _ handleCounters_pending s
  | flush => exact State.goesOn_handleHead _ handleFlush_pending s
  | stage => exact State.goesOn_handleHead _ handleStage_pending s
  | swap => exact State.goesOn_handleHead _ handleSwap_pending s
  | start => exact State.goesOn_handleHead _ handleStart_pending s
  | halt => exact State.goesOn_handleHead _ handleHalt_pending s
  | period => exact State.goesOn_handleHead _ handlePeriod_pending s
  | reset => exact State.goesOn_handleHead _ handleReset_pending s
  | bundle => exact State.goesOn_handleHead _ handleBundle_pending s
  | unknownKind => exact State.goesOn_handleHead _ handleUnknownKind_pending s
  | blockVoided =>
    refine State.goesOn_next ?_
    split
    · rfl
    · exact State.pending_ite (s.voidNext_pending ..) rfl
  | cycleStart =>
    refine State.goesOn_next ?_
    split
    · rfl
    · exact State.pending_ite (s.beginCycle_pending _) rfl
  | slotEvent =>
    refine State.goesOn_next ?_
    split
    · rfl
    · exact State.pending_ite (s.runSlot_pending ..) rfl
  | slotOutcome ret =>
    refine State.goesOn_next ?_
    split
    · rfl
    · exact State.pending_ite (s.endSlot_pending ..) rfl
  | pick =>
    refine State.goesOn_next ?_
    split
    · rfl
    · exact State.pending_ite (s.pickOf_pending _) rfl
  | frameSent =>
    refine State.goesOn_next ?_
    split
    · rfl
    · exact State.pending_ite rfl rfl
  | clockStops => exact State.goesOn_next rfl
  | clockReturns => exact State.goesOn_next rfl

end Sys2Proof.Machine
end
